-- ==== Sys2Proof/Word.lean ====
section
/-! DEFINITION. The word types of the OWIR block: 16-bit registers, 8-bit one-wire bytes, 4-bit IR values
(00_scope.md R10), and the one bit a Boolean stands for (R11: Boolean values are written 0 and 1). -/

namespace Sys2Proof

/-- A host register, 16 bits (R10, R76). -/
abbrev Word := BitVec 16

/-- A one-wire byte, 8 bits (R10). -/
abbrev Byte := BitVec 8

/-- A local, snapshot, received or peer value, 4 bits (R10). -/
abbrev Nibble := BitVec 4

end Sys2Proof
end

