-- ==== Sys2Proof/Config.lean ====
section
/-! DEFINITION. What an implementation fixes (the synthesis-time parameters of 00_scope.md R8), and the free values
the spec leaves open (93_implementation_defined.md I5 to I9, I13, I14). -/

namespace Sys2Proof

/-- The synthesis-time parameters of R8. `SILENCE`, `AGE_MAX` are computed from `framePeriod`, and `NBTN` is fixed at 4
by R8's own constraints, so none of the three is a field. `BASE` is `Config.baseWindow`. -/
structure Params where
  /-- `CLK_PER_US` -/
  clkPerUs : Nat
  /-- `SYNC_STAGES` -/
  syncStages : Nat
  /-- `T_RSTL_US` -/
  tRstl : Nat
  /-- `T_MSP_US` -/
  tMsp : Nat
  /-- `T_PRES_US` -/
  tPres : Nat
  /-- `T_W1L_US` -/
  tW1l : Nat
  /-- `T_W1R_US` -/
  tW1r : Nat
  /-- `T_W0L_US` -/
  tW0l : Nat
  /-- `T_W0R_US` -/
  tW0r : Nat
  /-- `T_RL_US` -/
  tRl : Nat
  /-- `T_RS_US` -/
  tRs : Nat
  /-- `T_RREST_US` -/
  tRrest : Nat
  /-- `SLOT_CYCLES` -/
  slotCycles : Nat
  /-- `FRAME_PERIOD`, P -/
  framePeriod : Nat
  /-- `DEBOUNCE_WINDOW` -/
  debounceWindow : Nat
  /-- `HOLD_WINDOW` -/
  holdWindow : Nat
  /-- `RX_SLOT_CYCLES` -/
  rxSlotCycles : Nat
  /-- `RX_HALF_CYCLES` -/
  rxHalfCycles : Nat
  /-- `CARRIER_HALF_CYCLES` -/
  carrierHalfCycles : Nat
  /-- `BTN_ACTIVE_LOW` -/
  btnActiveLow : Bool
  deriving DecidableEq, Repr

/-- The defaults of R8's table. -/
def Params.default : Params where
  clkPerUs := 1
  syncStages := 2
  tRstl := 480
  tMsp := 40
  tPres := 300
  tW1l := 5
  tW1r := 56
  tW0l := 60
  tW0r := 1
  tRl := 1
  tRs := 10
  tRrest := 50
  slotCycles := 1000
  framePeriod := 12
  debounceWindow := 20
  holdWindow := 48
  rxSlotCycles := 1000
  rxHalfCycles := 500
  carrierHalfCycles := 13
  btnActiveLow := true

/-- The constraint column of R8 (and R244): "A model must refuse a configuration outside the constraints". -/
abbrev Params.Legal (p : Params) : Prop :=
  1 ≤ p.clkPerUs ∧ 1 ≤ p.syncStages ∧ 480 ≤ p.tRstl ∧ 1 ≤ p.tMsp ∧ 1 ≤ p.tPres ∧
  1 ≤ p.tW1l ∧ 1 ≤ p.tW1r ∧ 1 ≤ p.tW0l ∧ 1 ≤ p.tW0r ∧ 1 ≤ p.tRl ∧ 1 ≤ p.tRs ∧ 1 ≤ p.tRrest ∧
  2 ≤ p.slotCycles ∧ 7 ≤ p.framePeriod ∧ p.framePeriod ≤ 127 ∧
  1 ≤ p.debounceWindow ∧ p.debounceWindow ≤ 65535 ∧ 1 ≤ p.holdWindow ∧ p.holdWindow ≤ 65535 ∧
  2 ≤ p.rxSlotCycles ∧ 1 ≤ p.rxHalfCycles ∧ p.rxHalfCycles < p.rxSlotCycles ∧ 1 ≤ p.carrierHalfCycles

/-- The levels of the asynchronous input pins in one cycle (R15, R19): `ow_i`, `ir_rx_i` and `btn_i[3:0]`. -/
structure Pins where
  ow : Bool
  ir : Bool
  btn : BitVec 4
  deriving DecidableEq, Repr, Inhabited

/-- FREE VALUE (log 2; I5, I7, I8, I9: "any value"): the pin levels of cycle `n`, where the state holds no scripted level.
It has no body, so nothing can be proved of the levels it gives. -/
opaque Config.freePins : Nat → Pins

/-- OPEN parameter `BASE` (log 12; I14, R75), as the number of its 32-byte window: `BASE` is 32-byte aligned (R8). -/
opaque Config.baseWindow : Nat

/-- The host bus address of byte offset `off` of the window (R75). -/
def Config.busAddress (off : BitVec 5) : Nat := 32 * Config.baseWindow + off.toNat

end Sys2Proof
end

