-- ==== Sys2Proof/Syntax.lean ====
section
/-! DEFINITION. The instructions of the block (30_encoding.md R97): one constructor per row of spec/opcode_table.json, and
the bus access that carries one. -/

namespace Sys2Proof

/-- What the host puts on the bus in one cycle (00_scope.md R14, R19; 30_encoding.md R97): an access described by its 6-bit
descriptor `W, OFF[4:0]` with the 16 bits of `bus_wdata` and the access size (`size8`: an 8-bit access), or, in format CMD, a
command word written to `OW_CMD` (a 16-bit write at offset 0x04). -/
inductive HostOp where
  | acc (size8 : Bool) (desc : BitVec 6) (wdata : Word)
  | cmd (word : Word)
  deriving DecidableEq, Repr

/-- The eight one-wire operations of the `OP` field (R99). -/
inductive OwOp where
  | nop | reset | writeBit | readBit | writeByte | readByte | driveHigh | release
  deriving DecidableEq, Repr

/-- The instructions. Format CMD: `data` is the `DATA` byte, which only WRITE_BYTE and WRITE_BIT read (R100). Format ACC: a
write carries its 16 data bits `v`; a reserved offset carries the offset. -/
inductive Instr where
  /-- CMD, OP 0 (R139) -/
  | nop (data : Byte)
  /-- CMD, OP 1 (R125) -/
  | reset (data : Byte)
  /-- CMD, OP 2 (R129) -/
  | writeBit (data : Byte)
  /-- CMD, OP 3 (R132) -/
  | readBit (data : Byte)
  /-- CMD, OP 4 (R134) -/
  | writeByte (data : Byte)
  /-- CMD, OP 5 (R135) -/
  | readByte (data : Byte)
  /-- CMD, OP 6 (R137) -/
  | driveHigh (data : Byte)
  /-- CMD, OP 7 (R138) -/
  | release (data : Byte)
  /-- ACC reads (R77) -/
  | rdCtrl
  | rdIfg
  | rdOwCmd
  | rdOwStat
  | rdOwRdata
  | rdTxStat
  | rdRxStat
  | rdPeer
  | rdBeatCnt
  | rdFrame
  | rdBtnStat
  | rdHold
  /-- ACC write of CTRL (R78) -/
  | wrCtrl (v : Word)
  /-- ACC write of IFG, write-1-to-clear (R79) -/
  | wrIfg (v : Word)
  /-- ACC write of OW_CMD, any word (R80) -/
  | wrOwCmd (v : Word)
  /-- ACC writes of the read-only registers (R81) -/
  | wrOwStat (v : Word)
  | wrOwRdata (v : Word)
  | wrTxStat (v : Word)
  | wrRxStat (v : Word)
  | wrPeer (v : Word)
  | wrBeatCnt (v : Word)
  | wrFrame (v : Word)
  | wrBtnStat (v : Word)
  | wrHold (v : Word)
  /-- ACC read of a reserved offset (R84) -/
  | rdRsvd (off : BitVec 5)
  /-- ACC write of a reserved offset (R84) -/
  | wrRsvd (off : BitVec 5) (v : Word)
  deriving DecidableEq, Repr

end Sys2Proof
end

