-- ==== Sys2Proof/WellFormed.lean ====
section
/-! DEFINITION. Which terms of `Instr` the encoding admits. Every operand field but one has exactly the width of its encoding,
so every value of it is admitted; the offset of a reserved access must be one of the four of 20_memory.md R84. -/

namespace Sys2Proof

/-- The reserved offsets 0x18, 0x1A, 0x1C and 0x1E (R84): bits 4:3 are 1 and bit 0 is 0 (the table's match and mask). -/
def reservedOffset (off : BitVec 5) : Bool := off == 0x18#5 || off == 0x1A#5 || off == 0x1C#5 || off == 0x1E#5

/-- The check itself. -/
def Instr.wellFormed : Instr → Bool
  | .nop _ => true
  | .reset _ => true
  | .writeBit _ => true
  | .readBit _ => true
  | .writeByte _ => true
  | .readByte _ => true
  | .driveHigh _ => true
  | .release _ => true
  | .rdCtrl => true
  | .rdIfg => true
  | .rdOwCmd => true
  | .rdOwStat => true
  | .rdOwRdata => true
  | .rdTxStat => true
  | .rdRxStat => true
  | .rdPeer => true
  | .rdBeatCnt => true
  | .rdFrame => true
  | .rdBtnStat => true
  | .rdHold => true
  | .wrCtrl _ => true
  | .wrIfg _ => true
  | .wrOwCmd _ => true
  | .wrOwStat _ => true
  | .wrOwRdata _ => true
  | .wrTxStat _ => true
  | .wrRxStat _ => true
  | .wrPeer _ => true
  | .wrBeatCnt _ => true
  | .wrFrame _ => true
  | .wrBtnStat _ => true
  | .wrHold _ => true
  | .rdRsvd off => reservedOffset off
  | .wrRsvd off _ => reservedOffset off

/-- An instruction the encoding admits. -/
abbrev Instr.WellFormed (i : Instr) : Prop := i.wellFormed = true

end Sys2Proof
end

