-- ==== Sys2Proof/Decode.lean ====
section
/-! DEFINITION. Decoding a bus access into an instruction, and encoding one, from 30_encoding.md R98 to R102. Decoding is total:
what is outside the interface contract (20_memory.md R76) is rejected by name. -/

namespace Sys2Proof

/-- Why a bus access is no instruction. -/
inductive DecodeError where
  /-- `bus_size` is 8 bits: outside the contract (R76, I1) -/
  | byteAccess
  /-- an odd offset: outside the contract (R76, I1) -/
  | oddOffset
  deriving DecidableEq, Repr

/-- Why bytes are no instruction. -/
inductive BytesError where
  /-- a first byte that is no 6-bit descriptor (R102) -/
  | badDescriptor
  /-- neither a command word nor a descriptor with or without its data -/
  | badLength
  /-- a bus access that is no instruction -/
  | access (e : DecodeError)
  deriving DecidableEq, Repr

/-- `OP`, bits 2:0 of a command word (R98). -/
def cmdOpField (v : Word) : BitVec 3 := v.extractLsb' 0 3

/-- `RSV`, bits 7:3 of a command word (R98). -/
def cmdRsv (v : Word) : BitVec 5 := v.extractLsb' 3 5

/-- `DATA`, bits 15:8 of a command word (R98). -/
def cmdData (v : Word) : Byte := v.extractLsb' 8 8

/-- The operation of an `OP` value: all eight are defined (R99). -/
def opOfCode (c : BitVec 3) : OwOp :=
  match c.toNat with
  | 0 => .nop
  | 1 => .reset
  | 2 => .writeBit
  | 3 => .readBit
  | 4 => .writeByte
  | 5 => .readByte
  | 6 => .driveHigh
  | _ => .release

/-- The `OP` value of an operation (R99). -/
def opCode : OwOp → BitVec 3
  | .nop => 0
  | .reset => 1
  | .writeBit => 2
  | .readBit => 3
  | .writeByte => 4
  | .readByte => 5
  | .driveHigh => 6
  | .release => 7

/-- The CMD instruction of an operation and its `DATA` byte. -/
def instrOfOp (op : OwOp) (data : Byte) : Instr :=
  match op with
  | .nop => .nop data
  | .reset => .reset data
  | .writeBit => .writeBit data
  | .readBit => .readBit data
  | .writeByte => .writeByte data
  | .readByte => .readByte data
  | .driveHigh => .driveHigh data
  | .release => .release data

/-- Decode a command word. A word with `RSV` ≠ 0 is a reserved encoding (R101): it is none of the eight operations, and the
access is the bare write of `OW_CMD` (R80), which the block rejects with `OW_CMD_ERR` (R118). Log 8. -/
def decodeCmd (v : Word) : Instr :=
  if cmdRsv v = 0 then instrOfOp (opOfCode (cmdOpField v)) (cmdData v) else .wrOwCmd v

/-- Decode a read at a byte offset (R48, R84, R102). -/
def decodeRead (off : BitVec 5) : Except DecodeError Instr :=
  match off.toNat with
  | 0x00 => .ok .rdCtrl
  | 0x02 => .ok .rdIfg
  | 0x04 => .ok .rdOwCmd
  | 0x06 => .ok .rdOwStat
  | 0x08 => .ok .rdOwRdata
  | 0x0A => .ok .rdTxStat
  | 0x0C => .ok .rdRxStat
  | 0x0E => .ok .rdPeer
  | 0x10 => .ok .rdBeatCnt
  | 0x12 => .ok .rdFrame
  | 0x14 => .ok .rdBtnStat
  | 0x16 => .ok .rdHold
  | _ => if reservedOffset off then .ok (.rdRsvd off) else .error .oddOffset

/-- Decode a write at a byte offset (R48, R84, R102). -/
def decodeWrite (off : BitVec 5) (v : Word) : Except DecodeError Instr :=
  match off.toNat with
  | 0x00 => .ok (.wrCtrl v)
  | 0x02 => .ok (.wrIfg v)
  | 0x04 => .ok (.wrOwCmd v)
  | 0x06 => .ok (.wrOwStat v)
  | 0x08 => .ok (.wrOwRdata v)
  | 0x0A => .ok (.wrTxStat v)
  | 0x0C => .ok (.wrRxStat v)
  | 0x0E => .ok (.wrPeer v)
  | 0x10 => .ok (.wrBeatCnt v)
  | 0x12 => .ok (.wrFrame v)
  | 0x14 => .ok (.wrBtnStat v)
  | 0x16 => .ok (.wrHold v)
  | _ => if reservedOffset off then .ok (.wrRsvd off v) else .error .oddOffset

/-- `OFF`, bits 4:0 of a descriptor (R102). -/
def descOff (desc : BitVec 6) : BitVec 5 := desc.extractLsb' 0 5

/-- `W`, bit 5 of a descriptor: 1 is a write (R102). -/
def descWrite (desc : BitVec 6) : Bool := desc.getLsbD 5

/-- Decode a bus access, total. Only 16-bit accesses at even offsets are inside the contract (R76). -/
def decode : HostOp → Except DecodeError Instr
  | .cmd v => .ok (decodeCmd v)
  | .acc true _ _ => .error .byteAccess
  | .acc false desc wdata => if descWrite desc then decodeWrite (descOff desc) wdata else decodeRead (descOff desc)

/-- A bus access from bytes, lowest address first, each word little-endian (R83): two bytes are a command word; one byte is a
descriptor (its data bits 0), three bytes a descriptor and its data word. Log 8. -/
def hostOpOfBytes : List Byte → Except BytesError HostOp
  | [d] => if d.extractLsb' 6 2 = 0 then .ok (.acc false (d.extractLsb' 0 6) 0) else .error .badDescriptor
  | [lo, hi] => .ok (.cmd (hi ++ lo))
  | [d, lo, hi] => if d.extractLsb' 6 2 = 0 then .ok (.acc false (d.extractLsb' 0 6) (hi ++ lo)) else .error .badDescriptor
  | _ => .error .badLength

/-- Decode the bytes of an instruction, total on any bytes. -/
def decodeBytes (bs : List Byte) : Except BytesError Instr :=
  match hostOpOfBytes bs with
  | .ok op =>
    match decode op with
    | .ok i => .ok i
    | .error e => .error (.access e)
  | .error e => .error e

/-- The bytes of a number of `k` bytes, least significant first. -/
def bytesOf : Nat → Nat → List Byte
  | 0, _ => []
  | k + 1, w => BitVec.ofNat 8 w :: bytesOf k (w / 256)

/-- The bytes of a row of spec/opcode_table.json whose `nbits` bits are `w`: a CMD row has 16 bits, an ACC row one byte (its
data word, above it, is 0). The table fixes only the low byte of a CMD row, so a lone byte that no ACC row matches and a CMD row
does (`RSV` 0, an odd `OP`) is that command word with `DATA` 0. Log 8. -/
def tableBytes (nbits w : Nat) : List Byte :=
  match bytesOf ((nbits + 7) / 8) w with
  | [d] => if d.extractLsb' 3 5 = 0 ∧ d.getLsbD 0 = true then [d, 0] else [d]
  | bs => bs

/-- The instruction the decoder reads from a table word, none where it refuses. -/
def decodeTableWord (nbits w : Nat) : Option Instr :=
  match decodeBytes (tableBytes nbits w) with
  | .ok i => some i
  | .error _ => none

/-- The command word of an operation and its `DATA` byte, `RSV` 0 (R98). -/
def encodeCmd (op : OwOp) (data : Byte) : HostOp := .cmd (data ++ 0#5 ++ opCode op)

/-- A 16-bit read at an offset: descriptor `0, OFF` (R102). -/
def encodeRead (off : BitVec 5) : HostOp := .acc false (0#1 ++ off) 0

/-- A 16-bit write at an offset: descriptor `1, OFF`, data on `bus_wdata` (R102). -/
def encodeWrite (off : BitVec 5) (v : Word) : HostOp := .acc false (1#1 ++ off) v

/-- The bus access that an instruction is, from the tables of R48, R98, R99 and R102. -/
def encode : Instr → HostOp
  | .nop data => encodeCmd .nop data
  | .reset data => encodeCmd .reset data
  | .writeBit data => encodeCmd .writeBit data
  | .readBit data => encodeCmd .readBit data
  | .writeByte data => encodeCmd .writeByte data
  | .readByte data => encodeCmd .readByte data
  | .driveHigh data => encodeCmd .driveHigh data
  | .release data => encodeCmd .release data
  | .rdCtrl => encodeRead 0x00
  | .rdIfg => encodeRead 0x02
  | .rdOwCmd => encodeRead 0x04
  | .rdOwStat => encodeRead 0x06
  | .rdOwRdata => encodeRead 0x08
  | .rdTxStat => encodeRead 0x0A
  | .rdRxStat => encodeRead 0x0C
  | .rdPeer => encodeRead 0x0E
  | .rdBeatCnt => encodeRead 0x10
  | .rdFrame => encodeRead 0x12
  | .rdBtnStat => encodeRead 0x14
  | .rdHold => encodeRead 0x16
  | .wrCtrl v => encodeWrite 0x00 v
  | .wrIfg v => encodeWrite 0x02 v
  | .wrOwCmd v => encodeWrite 0x04 v
  | .wrOwStat v => encodeWrite 0x06 v
  | .wrOwRdata v => encodeWrite 0x08 v
  | .wrTxStat v => encodeWrite 0x0A v
  | .wrRxStat v => encodeWrite 0x0C v
  | .wrPeer v => encodeWrite 0x0E v
  | .wrBeatCnt v => encodeWrite 0x10 v
  | .wrFrame v => encodeWrite 0x12 v
  | .wrBtnStat v => encodeWrite 0x14 v
  | .wrHold v => encodeWrite 0x16 v
  | .rdRsvd off => encodeRead off
  | .wrRsvd off v => encodeWrite off v

/-- The bytes of a bus access, as `hostOpOfBytes` reads them. -/
def hostOpBytes : HostOp → List Byte
  | .cmd v => [v.extractLsb' 0 8, v.extractLsb' 8 8]
  | .acc _ desc wdata => [0#2 ++ desc, wdata.extractLsb' 0 8, wdata.extractLsb' 8 8]

/-- The bytes of an instruction. -/
def encodeBytes (i : Instr) : List Byte := hostOpBytes (encode i)

/-- What the block's bus port sees of an access (00_scope.md R19): `bus_size` = 8, `bus_we`, `bus_off`, and `bus_wdata` where
it is a write. A command word is the 16-bit write of `OW_CMD` at offset 0x04 (R97, R59). -/
def portView : HostOp → Bool × Bool × BitVec 5 × Word
  | .cmd v => (false, true, 0x04#5, v)
  | .acc size8 desc wdata => (size8, descWrite desc, descOff desc, if descWrite desc then wdata else 0)

/-- Inside the interface contract: a 16-bit access at an even offset (R76). -/
def inContract (op : HostOp) : Bool := !(portView op).1 && !(portView op).2.2.1.getLsbD 0

end Sys2Proof
end

