-- ==== Sys2Proof/Machine/State.lean ====
section
/-! DEFINITION. The state of the block (10_state.md), field by field under the spec's own names and grouped by the unit that owns
each field (00_scope.md R17), the scripts of its environment, the reasons a step stops, and the state after reset. -/

namespace Sys2Proof.Machine

open Sys2Proof

/-- The line role `ow_role` (R27); its encoding's value 3 is never reached and has no constructor. -/
inductive LineRole where
  | released | driveLow | driveHigh
  deriving DecidableEq, Repr

/-- The phase `ow_phase` of a one-wire operation (R30); its encoding's values 9 to 15 are never reached and have none. -/
inductive OwPhase where
  | none | rstLow | rstRec | rstPres | wrLow | wrRel | rdLow | rdSamp | rdRest
  deriving DecidableEq, Repr

/-- The outcome `ow_result` of the last completed RESET (R32). -/
inductive OwResult where
  | none | present | noResponse | lineStuck
  deriving DecidableEq, Repr

/-- The receiver's frame position `rx_state` (R44). -/
inductive RxState where
  | idle | start | b0 | b1 | b2 | b3 | mark | stop
  deriving DecidableEq, Repr

/-- Four like things, one per button (R155: `NBTN` = 4). -/
structure Quad (α : Type) where
  q0 : α
  q1 : α
  q2 : α
  q3 : α
  deriving DecidableEq, Repr

/-- The one-wire master (R27 to R33). -/
structure OneWire where
  /-- `ow_role` -/
  role : LineRole
  /-- `ow_idle_high` -/
  idleHigh : Bool
  /-- `ow_busy` -/
  busy : Bool
  /-- `ow_op` -/
  op : OwOp
  /-- `ow_phase` -/
  phase : OwPhase
  /-- `ow_cnt` -/
  cnt : Nat
  /-- `ow_bit` -/
  bit : BitVec 3
  /-- `ow_wdata` -/
  wdata : Byte
  /-- `ow_shift` -/
  shift : Byte
  /-- `ow_s1` -/
  s1 : Bool
  /-- `ow_result` -/
  result : OwResult
  /-- `ow_rdata` -/
  rdata : Byte
  deriving DecidableEq, Repr

/-- The tick generator (R34, R35). -/
structure Tick where
  /-- `div` -/
  div : Nat
  /-- `beat_cnt` -/
  beatCnt : Word
  deriving DecidableEq, Repr

/-- The debounce bank with the local state value and its hold counter (R36 to R38). -/
structure Buttons where
  /-- `db[0..3]` -/
  db : Quad Word
  /-- `btn_prev[3:0]` -/
  prev : BitVec 4
  /-- `local` -/
  localVal : Nibble
  /-- `hold` -/
  hold : Word
  deriving DecidableEq, Repr

/-- The IR transmitter (R39 to R42). -/
structure Tx where
  /-- `slot` -/
  slot : Nat
  /-- `snap` -/
  snap : Nibble
  /-- `frame_active` -/
  frameActive : Bool
  /-- `transmit` -/
  transmit : Bool
  /-- `car_cnt` -/
  carCnt : Nat
  /-- `car_phase` -/
  carPhase : Bool
  deriving DecidableEq, Repr

/-- The IR receiver (R43 to R45). -/
structure Rx where
  /-- `rx_prev` -/
  prev : Bool
  /-- `rx_state` -/
  state : RxState
  /-- `rx_cnt` -/
  cnt : Nat
  /-- `rx_acc` -/
  acc : Nibble
  deriving DecidableEq, Repr

/-- The peer state holder (R46, R47). -/
structure Peer where
  /-- `peer_val` -/
  val : Nibble
  /-- `peer_valid` -/
  valid : Bool
  /-- `age` -/
  age : Nat
  deriving DecidableEq, Repr

/-- The state: the spec's record `s` (R12), the synchronizer flip-flops (R71), the synthesis-time parameters (R8), and, last,
the model's own fields. -/
structure State where
  /-- The parameters of R8; no step changes them (log 5). -/
  params : Params
  /-- `CTRL` (R49 to R55) -/
  ctrl : Word
  /-- `IFG` (R56 to R58) -/
  ifg : Word
  ow : OneWire
  tick : Tick
  btn : Buttons
  tx : Tx
  rx : Rx
  peer : Peer
  /-- The synchronizer flip-flops (R15, R71), the newest level first; the last entry is what `sample` reads (log 1). -/
  sync : List Pins
  /-- MODEL's own: the number of cycles performed, the index of the free pin levels (log 2). -/
  cycle : Nat
  /-- MODEL's own: the pin levels of the coming cycles (log 2). -/
  pinQ : List Pins
  /-- MODEL's own: the level of `rst` in the coming cycles; past its end 0 (log 3). -/
  rstQ : List Bool
  /-- MODEL's own: the host's access, or none, in each coming cycle; past its end none (log 4). -/
  hostQ : List (Option HostOp)
  /-- MODEL's own: what `bus_rdata` carried in the cycle just performed, none when it held no read (log 6). -/
  busRdata : Option Word
  deriving DecidableEq, Repr

/-- The reasons the machine stops with a fault: NONE. "No behaviour of this block is treated as fault or stuck"
(93_implementation_defined.md; 60_exceptions.md R204: no host access can fault). Log 13. -/
inductive Fault
  deriving DecidableEq, Repr

/-- The reasons a step is refused. -/
inductive Refusal where
  /-- An instruction that has no meaning yet; only an arm of `exec` raises it. Safe. -/
  | notModelled (mnemonic : String)
  /-- An 8-bit access (R76, I1: "A model refuses it"); `step` raises it for the access it fetched. Safe. -/
  | byteAccess
  /-- An access at an odd offset (R76, I1); `step` raises it for the access it fetched. Safe. -/
  | oddOffset
  /-- A parameter set outside R8's constraints (R244, I11: "A model must refuse a configuration outside the
  constraints"); `step` raises it. Safe. -/
  | illegalParameters
  deriving DecidableEq, Repr

/-- The released level of the four buttons (R37). -/
def releasedButtons (p : Params) : BitVec 4 := if p.btnActiveLow then 0b1111#4 else 0b0000#4

/-- What the synchronizer flip-flops reset to: 1, 1 and the released level (R71). -/
def resetPins (p : Params) : Pins := { ow := true, ir := true, btn := releasedButtons p }

/-- `SILENCE` = 2 × P (R8). -/
def silence (p : Params) : Nat := 2 * p.framePeriod

/-- `AGE_MAX` = SILENCE + 1 (R8). -/
def ageMax (p : Params) : Nat := silence p + 1

/-- The reset state of a block with parameters `p` (R228, and R27 to R47, R71), with nothing scripted. -/
def State.resetOf (p : Params) : State where
  params := p
  ctrl := 0x0000
  ifg := 0x0000
  ow :=
    { role := .released, idleHigh := false, busy := false, op := .nop, phase := .none, cnt := 0, bit := 0,
      wdata := 0x00, shift := 0x00, s1 := false, result := .none, rdata := 0x00 }
  tick := { div := 0, beatCnt := 0 }
  btn := { db := ⟨0, 0, 0, 0⟩, prev := releasedButtons p, localVal := 0, hold := 0 }
  tx :=
    { slot := p.framePeriod - 1, snap := 0, frameActive := false, transmit := false, carCnt := 0, carPhase := true }
  rx := { prev := true, state := .idle, cnt := 0, acc := 0 }
  peer := { val := 0, valid := false, age := ageMax p }
  sync := List.replicate p.syncStages (resetPins p)
  cycle := 0
  pinQ := []
  rstQ := []
  hostQ := []
  busRdata := none

/-- The machine right after reset, at the defaults of R8. -/
def State.reset : State := State.resetOf Params.default

end Sys2Proof.Machine
end

