-- ==== Sys2Proof/Machine/Flags.lean ====
section
/-! DEFINITION. The status flags: the six `IFG` bits, how units raise them and how the host clears them (10_state.md R56 to
R58, 60_exceptions.md R205 to R209), the enables of `CTRL`, and the interrupt lines (R210). Raising a flag is what the block has in
place of taking an exception (R204, R215): one shared operation, `raiseFlags`. -/

namespace Sys2Proof.Machine

open Sys2Proof

/-- The events of R205; the number is the `IFG` bit. -/
inductive Event where
  | tick | owDone | rx | btn | rxErr | owCmdErr
  deriving DecidableEq, Repr

/-- The `IFG` bit of an event (R205). -/
def eventBit : Event → Nat
  | .tick => 0
  | .owDone => 1
  | .rx => 2
  | .btn => 3
  | .rxErr => 4
  | .owCmdErr => 5

/-- The word with only an event's bit set. -/
def eventMask (e : Event) : Word := 1#16 <<< eventBit e

/-- An event's mask where it happens, else 0. -/
def eventIf (e : Event) (happens : Bool) : Word := if happens then eventMask e else 0

/-- The implemented bits of `IFG`, 5:0 (R58). -/
def ifgMask : Word := 0x003F

/-- The implemented bits of `CTRL`, 3:0 and 11:8 (R53, R55). -/
def ctrlMask : Word := 0x0F0F

/-- `raise` every flag of `set` (R207). Flags do not count (R208). -/
def raiseFlags (ifg set : Word) : Word := ifg ||| set

/-- `IFG'` of a write of `v` in a cycle that raises `set`: write-1-to-clear, set wins (R79). -/
def clearFlags (ifg v set : Word) : Word := ((ifg &&& ~~~(v &&& 0x003F)) ||| set) &&& 0x003F

/-- `CTRL.TICK_EN` (R49). -/
def State.tickEn (s : State) : Bool := s.ctrl.getLsbD 0

/-- `CTRL.TX_EN` (R50). -/
def State.txEn (s : State) : Bool := s.ctrl.getLsbD 1

/-- `CTRL.RX_EN` (R51). -/
def State.rxEn (s : State) : Bool := s.ctrl.getLsbD 2

/-- `CTRL.BTN_EN` (R52). -/
def State.btnEn (s : State) : Bool := s.ctrl.getLsbD 3

/-- Whether an event's flag is set. -/
def State.flag (s : State) (e : Event) : Bool := s.ifg.getLsbD (eventBit e)

/-- The four interrupt request lines (R210). -/
inductive IrqLine where
  | tick | ow | rx | btn
  deriving DecidableEq, Repr

/-- OPEN parameter `IRQ_PRIORITY` (log 12; I13, R213): the host's priority of each line. No rule of the block reads it. -/
opaque irqPriority : IrqLine → Nat

/-- The flag and the enable of each line (R205, R210): `irq_tick` is `IFG[0]` and `CTRL[8]`, and so on. -/
def State.irq (s : State) : IrqLine → Bool
  | .tick => s.ifg.getLsbD 0 && s.ctrl.getLsbD 8
  | .ow => s.ifg.getLsbD 1 && s.ctrl.getLsbD 9
  | .rx => s.ifg.getLsbD 2 && s.ctrl.getLsbD 10
  | .btn => s.ifg.getLsbD 3 && s.ctrl.getLsbD 11

end Sys2Proof.Machine
end

