-- ==== Sys2Proof/Machine/Operands.lean ====
section
/-! DEFINITION. The operand forms: the operand of each one-wire command (30_encoding.md R100), the synchronized inputs a
cycle reads (00_scope.md R15), the output pins (R19), and the register a read names, as a word built from the state
(10_state.md R48 to R68). -/

namespace Sys2Proof.Machine

open Sys2Proof

/-- `zext_8` of a command's operand bit, `DATA[0]` = `v[8]` (R100). -/
def bitOperand (data : Byte) : Byte := (data.extractLsb' 0 1).zeroExtend 8

/-- What acceptance latches into `ow_wdata` (R117, R100). -/
def latchedData (op : OwOp) (data old : Byte) : Byte :=
  match op with
  | .writeByte => data
  | .writeBit => bitOperand data
  | _ => old

/-- The timed operations, `op` ∈ 1 to 5 (R117). -/
def isTimed : OwOp → Bool
  | .reset | .writeBit | .readBit | .writeByte | .readByte => true
  | .nop | .driveHigh | .release => false

/-- `i_n`: the synchronized level of every input pin in this cycle, the last flip-flop's (R15). -/
def State.sample (s : State) : Pins := s.sync.getLastD (resetPins s.params)

/-- `ow_oe` (R27). -/
def State.owOe (s : State) : Bool := s.ow.role != .released

/-- `ow_o` (R27). -/
def State.owO (s : State) : Bool := s.ow.role == .driveHigh

/-- `ir_tx_o` (42_ir_tx.md R177). -/
def State.irTxO (s : State) : Bool := s.tx.transmit && s.tx.carPhase

/-- One bit of a register. -/
def bit1 (b : Bool) : BitVec 1 := BitVec.ofBool b

/-- The value of `ow_role` (R27). -/
def roleCode : LineRole → BitVec 2
  | .released => 0
  | .driveLow => 1
  | .driveHigh => 2

/-- The value of `ow_result` (R32). -/
def resultCode : OwResult → BitVec 2
  | .none => 0
  | .present => 1
  | .noResponse => 2
  | .lineStuck => 3

/-- The value of `ow_phase` (R30). -/
def phaseCode : OwPhase → BitVec 4
  | .none => 0
  | .rstLow => 1
  | .rstRec => 2
  | .rstPres => 3
  | .wrLow => 4
  | .wrRel => 5
  | .rdLow => 6
  | .rdSamp => 7
  | .rdRest => 8

/-- The value of `rx_state` (R44). -/
def rxStateCode : RxState → BitVec 3
  | .idle => 0
  | .start => 1
  | .b0 => 2
  | .b1 => 3
  | .b2 => 4
  | .b3 => 5
  | .mark => 6
  | .stop => 7

/-- `CTRL` as read (R49 to R55): reserved bits read 0 (log 14). -/
def readCtrl (s : State) : Word := s.ctrl &&& ctrlMask

/-- `IFG` as read (R56 to R58): reserved bits read 0 (log 14). -/
def readIfg (s : State) : Word := s.ifg &&& ifgMask

/-- `OW_CMD` as read: no storage (R59). -/
def readOwCmd (_ : State) : Word := 0x0000

/-- `OW_STAT` (R60): `[0]` busy, `[2:1]` role, `[3]` idle_high, `[5:4]` result, `[6]` LINE, `[10:8]` op, `[13:11]` bit. Bit 7 is
not named; it reads 0 (DEDUCED, log 7). -/
def readOwStat (s : State) : Word :=
  0#2 ++ s.ow.bit ++ opCode s.ow.op ++ 0#1 ++ bit1 s.sample.ow ++ resultCode s.ow.result ++ bit1 s.ow.idleHigh ++
    roleCode s.ow.role ++ bit1 s.ow.busy

/-- `OW_RDATA` (R61). -/
def readOwRdata (s : State) : Word := 0#8 ++ s.ow.rdata

/-- `TX_STAT` (R62). -/
def readTxStat (s : State) : Word :=
  0#5 ++ bit1 s.irTxO ++ bit1 s.tx.frameActive ++ bit1 s.tx.transmit ++ s.tx.snap ++ s.btn.localVal

/-- `RX_STAT` (R63). -/
def readRxStat (s : State) : Word := 0#7 ++ bit1 s.sample.ir ++ s.rx.acc ++ 0#1 ++ rxStateCode s.rx.state

/-- `PEER` (R64). -/
def readPeer (s : State) : Word := BitVec.ofNat 8 s.peer.age ++ 0#3 ++ bit1 s.peer.valid ++ s.peer.val

/-- `BEAT_CNT` (R65). -/
def readBeatCnt (s : State) : Word := s.tick.beatCnt

/-- `FRAME` (R66). -/
def readFrame (s : State) : Word := 0#8 ++ BitVec.ofNat 8 s.tx.slot

/-- `BTN_STAT` (R67). -/
def readBtnStat (s : State) : Word :=
  0#4 ++ s.sample.btn ++ 0#4 ++ bit1 (s.btn.db.q3 != 0) ++ bit1 (s.btn.db.q2 != 0) ++ bit1 (s.btn.db.q1 != 0) ++
    bit1 (s.btn.db.q0 != 0)

/-- `HOLD` (R68). -/
def readHold (s : State) : Word := s.btn.hold

/-- A reserved offset as read (R84). -/
def readRsvd (_ : State) : Word := 0x0000

/-- What an instruction makes `bus_rdata` carry in its cycle (R77), none for a write. -/
def busReadOf (s : State) : Instr → Option Word
  | .nop _ => none
  | .reset _ => none
  | .writeBit _ => none
  | .readBit _ => none
  | .writeByte _ => none
  | .readByte _ => none
  | .driveHigh _ => none
  | .release _ => none
  | .rdCtrl => some (readCtrl s)
  | .rdIfg => some (readIfg s)
  | .rdOwCmd => some (readOwCmd s)
  | .rdOwStat => some (readOwStat s)
  | .rdOwRdata => some (readOwRdata s)
  | .rdTxStat => some (readTxStat s)
  | .rdRxStat => some (readRxStat s)
  | .rdPeer => some (readPeer s)
  | .rdBeatCnt => some (readBeatCnt s)
  | .rdFrame => some (readFrame s)
  | .rdBtnStat => some (readBtnStat s)
  | .rdHold => some (readHold s)
  | .wrCtrl _ => none
  | .wrIfg _ => none
  | .wrOwCmd _ => none
  | .wrOwStat _ => none
  | .wrOwRdata _ => none
  | .wrTxStat _ => none
  | .wrRxStat _ => none
  | .wrPeer _ => none
  | .wrBeatCnt _ => none
  | .wrFrame _ => none
  | .wrBtnStat _ => none
  | .wrHold _ => none
  | .rdRsvd _ => some (readRsvd s)
  | .wrRsvd _ _ => none

end Sys2Proof.Machine
end

