-- ==== Sys2Proof/Machine/TickButtons.lean ====
section
/-! DEFINITION. The tick generator, the debounce bank, the local state value and its hold counter (41_tick_debounce.md). -/

namespace Sys2Proof.Machine

open Sys2Proof

/-- `beat` of this cycle (R146, R147). -/
def beat (s : State) : Bool := s.tickEn && s.tick.div == s.params.slotCycles - 1

/-- The tick generator in one cycle: the divider (R146, R147) and beat action (e) (R150, R153). -/
def tickNext (s : State) : Tick where
  div := if s.tickEn then (if beat s then 0 else s.tick.div + 1) else 0
  beatCnt := if beat s then s.tick.beatCnt + 1 else s.tick.beatCnt

/-- The element of button `k`. -/
def quadGet {α : Type} (q : Quad α) (k : Fin 4) : α :=
  match k with
  | 0 => q.q0
  | 1 => q.q1
  | 2 => q.q2
  | 3 => q.q3

/-- The four elements of a function of the button. -/
def quadOf {α : Type} (f : Fin 4 → α) : Quad α := ⟨f 0, f 1, f 2, f 3⟩

/-- `press[k]` of this cycle (R158). -/
def press (s : State) (k : Fin 4) : Bool :=
  if s.params.btnActiveLow then s.btn.prev.getLsbD k && !s.sample.btn.getLsbD k
  else !s.btn.prev.getLsbD k && s.sample.btn.getLsbD k

/-- A 16-bit counter decremented toward zero, never below (R152, R163). -/
def decr (x : Word) : Word := if x = 0 then 0 else x - 1

/-- `dbd[k]`, the decayed debounce counter of this cycle (R152). -/
def dbDecayed (s : State) (k : Fin 4) : Word := if beat s then decr (quadGet s.btn.db k) else quadGet s.btn.db k

/-- `k ∈ H`: the press of button `k` is honoured in this cycle (R160). -/
def honoured (s : State) (k : Fin 4) : Bool := s.btnEn && press s k && dbDecayed s k == 0

/-- `H ≠ ∅` (R160). -/
def anyHonoured (s : State) : Bool := honoured s 0 || honoured s 1 || honoured s 2 || honoured s 3

/-- `1 + min(H)`: the lowest honoured button decides (R161, R162). -/
def honouredIdentity (s : State) : Nibble :=
  if honoured s 0 then 1 else if honoured s 1 then 2 else if honoured s 2 then 3 else 4

/-- `hold_d` (R163). -/
def holdDecayed (s : State) : Word := if beat s then decr s.btn.hold else s.btn.hold

/-- `local_d` (R163). -/
def localDecayed (s : State) : Nibble := if beat s then (if holdDecayed s = 0 then 0 else s.btn.localVal) else s.btn.localVal

/-- The button bank in one cycle (R158, R160, R163). -/
def buttonsNext (s : State) : Buttons where
  db := quadOf fun k => if honoured s k then BitVec.ofNat 16 s.params.debounceWindow else dbDecayed s k
  prev := s.sample.btn
  localVal := if anyHonoured s then honouredIdentity s else localDecayed s
  hold := if anyHonoured s then BitVec.ofNat 16 s.params.holdWindow else holdDecayed s

end Sys2Proof.Machine
end

