-- ==== Sys2Proof/Machine/IrRx.lean ====
section
/-! DEFINITION. The IR frame receiver, and the peer state with its age (43_ir_rx.md). -/

namespace Sys2Proof.Machine

open Sys2Proof

/-- `fall`: a falling edge of the synchronized detector input (R182). -/
def rxFall (s : State) : Bool := s.rx.prev && !s.sample.ir

/-- A firing: the sampling timer expires in this cycle (R185). -/
def rxFires (s : State) : Bool := s.rxEn && s.rx.state != .idle && decide (s.rx.cnt ≤ 1)

/-- An abort of this cycle: a START firing that reads idle (R188), or a STOP firing that reads active (R194). It raises
`RX_ERR` (R191). -/
def rxAborts (s : State) : Bool :=
  rxFires s && ((s.rx.state == .start && s.sample.ir) || (s.rx.state == .stop && !s.sample.ir))

/-- A publish of this cycle: a STOP firing that reads idle (R194, R195). It raises `RX_IF`. -/
def rxPublishes (s : State) : Bool := rxFires s && s.rx.state == .stop && s.sample.ir

/-- `((rx_acc << 1) | r) & 0xF` (R189). -/
def shiftIn (acc : Nibble) (r : Bool) : Nibble := acc.extractLsb' 0 3 ++ bit1 r

/-- A firing's action on the receiver, where `rx_prev` is already written (R188 to R195, R186). IDLE never fires. -/
def rxFire (p : Params) (r : Bool) (rx : Rx) : Rx :=
  match rx.state with
  | .idle => rx
  | .start => if r then { rx with state := .idle, cnt := 0 } else { rx with state := .b0, cnt := p.rxSlotCycles }
  | .b0 => { rx with state := .b1, cnt := p.rxSlotCycles, acc := shiftIn rx.acc r }
  | .b1 => { rx with state := .b2, cnt := p.rxSlotCycles, acc := shiftIn rx.acc r }
  | .b2 => { rx with state := .b3, cnt := p.rxSlotCycles, acc := shiftIn rx.acc r }
  | .b3 => { rx with state := .mark, cnt := p.rxSlotCycles, acc := shiftIn rx.acc r }
  | .mark => { rx with state := .stop, cnt := p.rxSlotCycles }
  | .stop => { rx with state := .idle, cnt := 0 }

/-- The receiver in one cycle: the edge detector always (R182); held in IDLE while disabled (R197); started by an edge where
armed (R183, R184); else the sampling timer (R185). -/
def rxNext (s : State) : Rx :=
  if s.rxEn then
    if s.rx.state = .idle then
      if rxFall s then { prev := s.sample.ir, state := .start, cnt := s.params.rxHalfCycles, acc := 0 }
      else { s.rx with prev := s.sample.ir }
    else if s.rx.cnt > 1 then { s.rx with prev := s.sample.ir, cnt := s.rx.cnt - 1 }
    else rxFire s.params s.sample.ir { s.rx with prev := s.sample.ir }
  else { s.rx with prev := s.sample.ir, state := .idle, cnt := 0 }

/-- `age_d` (R199). -/
def ageNext (s : State) : Nat := min (s.peer.age + 1) (ageMax s.params)

/-- The beat's action on the peer state: age and stale forcing (R199). -/
def peerBeat (s : State) : Peer :=
  if ageNext s > silence s.params then { val := 0, valid := false, age := ageNext s } else { s.peer with age := ageNext s }

/-- The peer state in one cycle: a publish (R195) overrides the beat's action (R196, R199). -/
def peerNext (s : State) : Peer :=
  if rxPublishes s then { val := s.rx.acc, valid := true, age := 0 }
  else if beat s then peerBeat s
  else s.peer

end Sys2Proof.Machine
end

