-- ==== Sys2Proof/Machine/IrTx.lean ====
section
/-! DEFINITION. The IR frame transmitter and its carrier gate (42_ir_tx.md). -/

namespace Sys2Proof.Machine

open Sys2Proof

/-- `q`, the slot a beat begins (R169). -/
def nextSlot (s : State) : Nat := (s.tx.slot + 1) % s.params.framePeriod

/-- The snapshot after a beat that begins slot `q` (R170). -/
def snapNext (s : State) : Nibble := if nextSlot s = 0 then s.btn.localVal else s.tx.snap

/-- The frame gate after a beat that begins slot `q` (R171). -/
def frameActiveNext (s : State) : Bool :=
  if nextSlot s = 0 then s.txEn && s.btn.localVal != 0 else s.tx.frameActive

/-- Whether slot `q` of a frame of value `v` carries carrier: start and stop do, a data slot does where its bit is 0, the gap
does not (R172; 30_encoding.md R108 to R110). -/
def slotCarrier (q : Nat) (v : Nibble) : Bool :=
  q == 0 || q == 5 || (decide (1 ≤ q ∧ q ≤ 4) && !v.getLsbD (4 - q))

/-- The carrier generator in one cycle (R176): the next `car_cnt` and `car_phase`. -/
def carrierNext (s : State) : Nat × Bool :=
  if s.tx.transmit then
    if s.tx.carCnt = s.params.carrierHalfCycles - 1 then (0, !s.tx.carPhase) else (s.tx.carCnt + 1, s.tx.carPhase)
  else (0, true)

/-- The transmitter in one cycle: held in the last gap slot while the tick is disabled (R175), advanced in a beat (R169 to
R172), else unchanged; the carrier generator runs in every cycle (R176). -/
def txNext (s : State) : Tx :=
  if s.tickEn then
    if beat s then
      { slot := nextSlot s
        snap := snapNext s
        frameActive := frameActiveNext s
        transmit := frameActiveNext s && slotCarrier (nextSlot s) (snapNext s)
        carCnt := (carrierNext s).1
        carPhase := (carrierNext s).2 }
    else { s.tx with carCnt := (carrierNext s).1, carPhase := (carrierNext s).2 }
  else
    { slot := s.params.framePeriod - 1
      snap := s.tx.snap
      frameActive := false
      transmit := false
      carCnt := (carrierNext s).1
      carPhase := (carrierNext s).2 }

end Sys2Proof.Machine
end

