-- ==== Sys2Proof/Machine/OneWire.lean ====
section
/-! DEFINITION. The one-wire bus master (40_onewire.md): the phase table, the phase engine of one cycle, and the acceptance of a
command. `line` is `sample(ow_i)` of the cycle. -/

namespace Sys2Proof.Machine

open Sys2Proof

/-- `D(X)` = `T_X_US` × `CLK_PER_US` (R115). -/
def durCycles (p : Params) (us : Nat) : Nat := us * p.clkPerUs

/-- The line role of a phase (R116). -/
def phaseRole : OwPhase → LineRole
  | .rstLow | .wrLow | .rdLow => .driveLow
  | .none | .rstRec | .rstPres | .wrRel | .rdSamp | .rdRest => .released

/-- The duration of a phase in cycles; `b` is the bit a write slot sends (R116). -/
def phaseDur (p : Params) (b : Bool) : OwPhase → Nat
  | .none => 0
  | .rstLow => durCycles p p.tRstl
  | .rstRec => durCycles p p.tMsp
  | .rstPres => durCycles p p.tPres
  | .wrLow => if b then durCycles p p.tW1l else durCycles p p.tW0l
  | .wrRel => if b then durCycles p p.tW1r else durCycles p p.tW0r
  | .rdLow => durCycles p p.tRl
  | .rdSamp => durCycles p p.tRs
  | .rdRest => durCycles p p.tRrest

/-- The bit of the running write slot: `ow_wdata[ow_bit]` (R116). -/
def slotBit (ow : OneWire) : Bool := ow.wdata.getLsbD ow.bit.toNat

/-- `enter(ph)`: the duration is read with the `ow_bit` and `ow_wdata` the next state holds, which `ow` already does (R120). -/
def enterPhase (p : Params) (ph : OwPhase) (ow : OneWire) : OneWire :=
  { ow with phase := ph, cnt := phaseDur p (slotBit ow) ph, role := phaseRole ph }

/-- The outcome of a RESET from its two samples (R126). -/
def resetOutcome (s1 s2 : Bool) : OwResult :=
  match s1, s2 with
  | false, true => .present
  | true, true => .noResponse
  | false, false => .lineStuck
  | true, false => .lineStuck

/-- The role the line takes when no operation runs (R28). -/
def idleRole (idleHigh : Bool) : LineRole := if idleHigh then .driveHigh else .released

/-- Whether the running operation publishes `ow_rdata` at its finish: `ow_op` ∈ 3, 5 (R122). -/
def isRead : OwOp → Bool
  | .readBit | .readByte => true
  | .nop | .reset | .writeBit | .writeByte | .driveHigh | .release => false

/-- The finish of a timed operation, its flag apart (R122). -/
def finishOp (ow : OneWire) : OneWire :=
  { ow with
    busy := false
    phase := .none
    cnt := 0
    role := idleRole ow.idleHigh
    rdata := if isRead ow.op then ow.shift else ow.rdata }

/-- `ow_shift[ow_bit] <- b`. -/
def setShiftBit (shift : Byte) (k : BitVec 3) (b : Bool) : Byte :=
  if b then shift ||| (1#8 <<< k.toNat) else shift &&& ~~~(1#8 <<< k.toNat)

/-- Whether the end of a slot goes on to the next bit of a byte operation `op` (R134, R135). -/
def moreBits (ow : OneWire) (op : OwOp) : Bool := ow.op == op && decide (ow.bit.toNat < 7)

/-- The end action of a phase (R116, R134, R135). No operation runs in phase NONE, which has no end action. -/
def endAction (p : Params) (line : Bool) (ow : OneWire) : OneWire :=
  match ow.phase with
  | .none => ow
  | .rstLow => enterPhase p .rstRec ow
  | .rstRec => enterPhase p .rstPres { ow with s1 := line }
  | .rstPres => finishOp { ow with result := resetOutcome ow.s1 line }
  | .wrLow => enterPhase p .wrRel ow
  | .wrRel => if moreBits ow .writeByte then enterPhase p .wrLow { ow with bit := ow.bit + 1 } else finishOp ow
  | .rdLow => enterPhase p .rdSamp ow
  | .rdSamp => enterPhase p .rdRest { ow with shift := setShiftBit ow.shift ow.bit line }
  | .rdRest => if moreBits ow .readByte then enterPhase p .rdLow { ow with bit := ow.bit + 1 } else finishOp ow

/-- Whether the end action of the phase is the finish (R116, R134, R135). -/
def endsInFinish (ow : OneWire) : Bool :=
  match ow.phase with
  | .none | .rstLow | .rstRec | .wrLow | .rdLow | .rdSamp => false
  | .rstPres => true
  | .wrRel => !moreBits ow .writeByte
  | .rdRest => !moreBits ow .readByte

/-- The phase engine in one cycle (R121). -/
def owNext (p : Params) (line : Bool) (ow : OneWire) : OneWire :=
  if ow.busy then
    if ow.cnt > 1 then { ow with cnt := ow.cnt - 1 } else endAction p line ow
  else ow

/-- Whether the engine finishes an operation in this cycle, which raises `OW_DONE_IF` (R121, R122). -/
def owFinishes (ow : OneWire) : Bool := ow.busy && decide (ow.cnt ≤ 1) && endsInFinish ow

/-- The first phase of a timed operation, `First(op)` (R117). -/
def firstPhase : OwOp → OwPhase
  | .reset => .rstLow
  | .writeBit | .writeByte => .wrLow
  | .readBit | .readByte => .rdLow
  | .nop | .driveHigh | .release => .none

/-- The acceptance of a timed operation (R117). -/
def acceptTimed (p : Params) (op : OwOp) (data : Byte) (ow : OneWire) : OneWire :=
  enterPhase p (firstPhase op)
    { ow with
      busy := true
      op := op
      bit := 0
      shift := 0x00
      wdata := latchedData op data ow.wdata
      result := if op = .reset then .none else ow.result }

/-- The acceptance of DRIVE_HIGH (R137). -/
def acceptDriveHigh (ow : OneWire) : OneWire := { ow with idleHigh := true, role := .driveHigh, op := .driveHigh }

/-- The acceptance of RELEASE (R138). -/
def acceptRelease (ow : OneWire) : OneWire := { ow with idleHigh := false, role := .released, op := .release }

end Sys2Proof.Machine
end

