-- ==== Sys2Proof/Machine/Ops.lean ====
section
/-! DEFINITION. One clock cycle of the block (00_scope.md R14, R16): the units' part, and on top of it the host access's (steps 1
to 7, and step 8). Every meaning of an instruction is one of these operations. The block has no memory and takes no exception
(20_memory.md R75, 60_exceptions.md R204); what it has in their place are the host's register accesses and the events of R205. -/

namespace Sys2Proof.Machine

open Sys2Proof

/-- `set_n`: the flags the units raise in this cycle (R79, R205). -/
def raisedByUnits (s : State) : Word :=
  eventIf .tick (beat s) ||| eventIf .owDone (owFinishes s.ow) ||| eventIf .rx (rxPublishes s) |||
    eventIf .btn (anyHonoured s) ||| eventIf .rxErr (rxAborts s)

/-- The pin levels of this cycle: scripted, else a free value (log 2). -/
def State.pins (s : State) : Pins := s.pinQ.headD (Config.freePins s.cycle)

/-- The synchronizers in one cycle: each flip-flop takes the one before it, the first takes the pins (R15). -/
def syncNext (s : State) : List Pins := s.pins :: s.sync.dropLast

/-- A cycle with no host access: every unit advances by its rules from `s_n` and this cycle's inputs (R12, R16 steps 1 to 7). -/
def State.cycleNext (s : State) : State :=
  { s with
    ifg := raiseFlags s.ifg (raisedByUnits s)
    ow := owNext s.params s.sample.ow s.ow
    tick := tickNext s
    btn := buttonsNext s
    tx := txNext s
    rx := rxNext s
    peer := peerNext s
    sync := syncNext s
    cycle := s.cycle + 1
    pinQ := s.pinQ.tail
    busRdata := none }

/-- A cycle whose host access is a read: `bus_rdata` carries the register built from `s_n`, and nothing else changes (R77, R85). -/
def readCycle (s : State) (w : Word) : State := { s.cycleNext with busRdata := some w }

/-- A cycle whose host access writes CTRL (R78): the units still ran with the old enables. -/
def ctrlCycle (s : State) (v : Word) : State := { s.cycleNext with ctrl := v &&& 0x0F0F }

/-- A cycle whose host access writes IFG (R79). -/
def ifgCycle (s : State) (v : Word) : State := { s.cycleNext with ifg := clearFlags s.ifg v (raisedByUnits s) }

/-- A cycle whose host access is a write with no effect: a read-only register or a reserved offset (R81, R84). -/
def ignoredCycle (s : State) : State := s.cycleNext

/-- A cycle whose host access is a rejected command: `OW_CMD_ERR`, and nothing else (R118). -/
def rejectCycle (s : State) : State :=
  { s.cycleNext with ifg := raiseFlags s.ifg (raisedByUnits s ||| eventMask .owCmdErr) }

/-- A cycle whose host access is an accepted command that makes the one-wire master `ow`. The engine does nothing in such a
cycle, since acceptance needs `ow_busy` = 0 (R117, R121). -/
def acceptCycle (s : State) (ow : OneWire) : State := { s.cycleNext with ow := ow }

/-- A cycle whose host access is a command with `RSV` = 0: rejected while busy, by `s_n.ow_busy` (R117, R118, R90). -/
def commandCycle (s : State) (accepted : OneWire) : State :=
  if s.ow.busy then rejectCycle s else acceptCycle s accepted

/-- What an accepted command makes of the one-wire master (R117, R137, R138, R139). -/
def acceptOp (p : Params) (op : OwOp) (data : Byte) (ow : OneWire) : OneWire :=
  match op with
  | .nop => ow
  | .reset => acceptTimed p .reset data ow
  | .writeBit => acceptTimed p .writeBit data ow
  | .readBit => acceptTimed p .readBit data ow
  | .writeByte => acceptTimed p .writeByte data ow
  | .readByte => acceptTimed p .readByte data ow
  | .driveHigh => acceptDriveHigh ow
  | .release => acceptRelease ow

/-- A cycle with `rst` = 1 (R227): the next state is the reset state whatever the inputs and the access; `read` is what
`bus_rdata` carried. The parameters stay, and the environment's scripts move on by one cycle. -/
def resetCycle (s : State) (read : Option Word) : State :=
  { State.resetOf s.params with
    cycle := s.cycle + 1
    pinQ := s.pinQ.tail
    rstQ := s.rstQ
    hostQ := s.hostQ
    busRdata := read }

/-- The access the host makes in this cycle, or none (R14, R87). -/
def State.access (s : State) : Option HostOp := s.hostQ.headD none

/-- The level of `rst` in this cycle (R227). -/
def State.rst (s : State) : Bool := s.rstQ.headD false

/-- The state with this cycle's access and `rst` level taken off their scripts. -/
def State.taken (s : State) : State := { s with hostQ := s.hostQ.tail, rstQ := s.rstQ.tail }

/-- The refusal of an access that is no instruction (R76, I1). -/
def refusalOf : DecodeError → Refusal
  | .byteAccess => .byteAccess
  | .oddOffset => .oddOffset

end Sys2Proof.Machine
end

