-- ==== Sys2Proof/Machine/Commands.lean ====
section
/-! DEFINITION. The meanings of the one-wire commands (40_onewire.md): a write of a command word to OW_CMD, accepted while the
master is idle and rejected while it is busy (R117, R118). The operation that an accepted command starts runs in the cycles after it, on
the phase engine. -/

namespace Sys2Proof.Machine

open Sys2Proof

/-- NOP (R139). -/
def execNop (data : Byte) (s : State) : Host.Outcome State Fault Refusal :=
  .next (commandCycle s (acceptOp s.params .nop data s.ow))

/-- RESET (R125, R128). -/
def execReset (data : Byte) (s : State) : Host.Outcome State Fault Refusal :=
  .next (commandCycle s (acceptOp s.params .reset data s.ow))

/-- WRITE_BIT (R129). -/
def execWriteBit (data : Byte) (s : State) : Host.Outcome State Fault Refusal :=
  .next (commandCycle s (acceptOp s.params .writeBit data s.ow))

/-- READ_BIT (R132). -/
def execReadBit (data : Byte) (s : State) : Host.Outcome State Fault Refusal :=
  .next (commandCycle s (acceptOp s.params .readBit data s.ow))

/-- WRITE_BYTE (R134). -/
def execWriteByte (data : Byte) (s : State) : Host.Outcome State Fault Refusal :=
  .next (commandCycle s (acceptOp s.params .writeByte data s.ow))

/-- READ_BYTE (R135). -/
def execReadByte (data : Byte) (s : State) : Host.Outcome State Fault Refusal :=
  .next (commandCycle s (acceptOp s.params .readByte data s.ow))

/-- DRIVE_HIGH (R137). -/
def execDriveHigh (data : Byte) (s : State) : Host.Outcome State Fault Refusal :=
  .next (commandCycle s (acceptOp s.params .driveHigh data s.ow))

/-- RELEASE (R138). -/
def execRelease (data : Byte) (s : State) : Host.Outcome State Fault Refusal :=
  .next (commandCycle s (acceptOp s.params .release data s.ow))

/-- WR OW_CMD of any word: a one-wire command (R59, R80). A word with `RSV` ≠ 0 is rejected (R101, R118). -/
def execWrOwCmd (v : Word) (s : State) : Host.Outcome State Fault Refusal :=
  if cmdRsv v = 0 then .next (commandCycle s (acceptOp s.params (opOfCode (cmdOpField v)) (cmdData v) s.ow))
  else .next (rejectCycle s)

end Sys2Proof.Machine
end

