-- ==== Sys2Proof/Machine/Reads.lean ====
section
/-! DEFINITION. The meanings of the ACC reads (20_memory.md R77, R84): `bus_rdata` carries the register built from the state at the
start of the cycle, and a read has no side effect (R85). -/

namespace Sys2Proof.Machine

open Sys2Proof

/-- RD CTRL (R77, R49 to R55). -/
def execRdCtrl (s : State) : Host.Outcome State Fault Refusal := .next (readCycle s (readCtrl s))

/-- RD IFG (R77, R56 to R58). -/
def execRdIfg (s : State) : Host.Outcome State Fault Refusal := .next (readCycle s (readIfg s))

/-- RD OW_CMD (R77, R59). -/
def execRdOwCmd (s : State) : Host.Outcome State Fault Refusal := .next (readCycle s (readOwCmd s))

/-- RD OW_STAT (R77, R60). -/
def execRdOwStat (s : State) : Host.Outcome State Fault Refusal := .next (readCycle s (readOwStat s))

/-- RD OW_RDATA (R77, R61). -/
def execRdOwRdata (s : State) : Host.Outcome State Fault Refusal := .next (readCycle s (readOwRdata s))

/-- RD TX_STAT (R77, R62). -/
def execRdTxStat (s : State) : Host.Outcome State Fault Refusal := .next (readCycle s (readTxStat s))

/-- RD RX_STAT (R77, R63). -/
def execRdRxStat (s : State) : Host.Outcome State Fault Refusal := .next (readCycle s (readRxStat s))

/-- RD PEER (R77, R64). -/
def execRdPeer (s : State) : Host.Outcome State Fault Refusal := .next (readCycle s (readPeer s))

/-- RD BEAT_CNT (R77, R65). -/
def execRdBeatCnt (s : State) : Host.Outcome State Fault Refusal := .next (readCycle s (readBeatCnt s))

/-- RD FRAME (R77, R66). -/
def execRdFrame (s : State) : Host.Outcome State Fault Refusal := .next (readCycle s (readFrame s))

/-- RD BTN_STAT (R77, R67). -/
def execRdBtnStat (s : State) : Host.Outcome State Fault Refusal := .next (readCycle s (readBtnStat s))

/-- RD HOLD (R77, R68). -/
def execRdHold (s : State) : Host.Outcome State Fault Refusal := .next (readCycle s (readHold s))

/-- RD of a reserved offset (R84). -/
def execRdRsvd (_off : BitVec 5) (s : State) : Host.Outcome State Fault Refusal := .next (readCycle s (readRsvd s))

end Sys2Proof.Machine
end

