-- ==== Sys2Proof/Machine/Writes.lean ====
section
/-! DEFINITION. The meanings of the ACC writes: CTRL (20_memory.md R78), IFG (R79), the read-only registers (R81) and the
reserved offsets (R84). The write of OW_CMD is with the commands. -/

namespace Sys2Proof.Machine

open Sys2Proof

/-- WR CTRL (R78). -/
def execWrCtrl (v : Word) (s : State) : Host.Outcome State Fault Refusal := .next (ctrlCycle s v)

/-- WR IFG, write-1-to-clear (R79). -/
def execWrIfg (v : Word) (s : State) : Host.Outcome State Fault Refusal := .next (ifgCycle s v)

/-- WR OW_STAT: ignored (R81, R60). -/
def execWrOwStat (_v : Word) (s : State) : Host.Outcome State Fault Refusal := .next (ignoredCycle s)

/-- WR OW_RDATA: ignored (R81, R61). -/
def execWrOwRdata (_v : Word) (s : State) : Host.Outcome State Fault Refusal := .next (ignoredCycle s)

/-- WR TX_STAT: ignored (R81, R62). -/
def execWrTxStat (_v : Word) (s : State) : Host.Outcome State Fault Refusal := .next (ignoredCycle s)

/-- WR RX_STAT: ignored (R81, R63). -/
def execWrRxStat (_v : Word) (s : State) : Host.Outcome State Fault Refusal := .next (ignoredCycle s)

/-- WR PEER: ignored (R81, R64). -/
def execWrPeer (_v : Word) (s : State) : Host.Outcome State Fault Refusal := .next (ignoredCycle s)

/-- WR BEAT_CNT: ignored (R81, R65). -/
def execWrBeatCnt (_v : Word) (s : State) : Host.Outcome State Fault Refusal := .next (ignoredCycle s)

/-- WR FRAME: ignored (R81, R66). -/
def execWrFrame (_v : Word) (s : State) : Host.Outcome State Fault Refusal := .next (ignoredCycle s)

/-- WR BTN_STAT: ignored (R81, R67). -/
def execWrBtnStat (_v : Word) (s : State) : Host.Outcome State Fault Refusal := .next (ignoredCycle s)

/-- WR HOLD: ignored (R81, R68). -/
def execWrHold (_v : Word) (s : State) : Host.Outcome State Fault Refusal := .next (ignoredCycle s)

/-- WR of a reserved offset: ignored (R84). -/
def execWrRsvd (_off : BitVec 5) (_v : Word) (s : State) : Host.Outcome State Fault Refusal := .next (ignoredCycle s)

end Sys2Proof.Machine
end

