-- ==== Sys2Proof/Machine/Dispatch.lean ====
section
/-! DEFINITION. One arm per instruction: `exec i s` is the cycle in which the host makes the access `i`. -/

namespace Sys2Proof.Machine

open Sys2Proof

def exec (i : Instr) (s : State) : Host.Outcome State Fault Refusal :=
  match i with
  | .nop data => Sys2Proof.Machine.execNop data s
  | .reset data => Sys2Proof.Machine.execReset data s
  | .writeBit data => Sys2Proof.Machine.execWriteBit data s
  | .readBit data => Sys2Proof.Machine.execReadBit data s
  | .writeByte data => Sys2Proof.Machine.execWriteByte data s
  | .readByte data => Sys2Proof.Machine.execReadByte data s
  | .driveHigh data => Sys2Proof.Machine.execDriveHigh data s
  | .release data => Sys2Proof.Machine.execRelease data s
  | .rdCtrl => Sys2Proof.Machine.execRdCtrl s
  | .rdIfg => Sys2Proof.Machine.execRdIfg s
  | .rdOwCmd => Sys2Proof.Machine.execRdOwCmd s
  | .rdOwStat => Sys2Proof.Machine.execRdOwStat s
  | .rdOwRdata => Sys2Proof.Machine.execRdOwRdata s
  | .rdTxStat => Sys2Proof.Machine.execRdTxStat s
  | .rdRxStat => Sys2Proof.Machine.execRdRxStat s
  | .rdPeer => Sys2Proof.Machine.execRdPeer s
  | .rdBeatCnt => Sys2Proof.Machine.execRdBeatCnt s
  | .rdFrame => Sys2Proof.Machine.execRdFrame s
  | .rdBtnStat => Sys2Proof.Machine.execRdBtnStat s
  | .rdHold => Sys2Proof.Machine.execRdHold s
  | .wrCtrl v => Sys2Proof.Machine.execWrCtrl v s
  | .wrIfg v => Sys2Proof.Machine.execWrIfg v s
  | .wrOwCmd v => Sys2Proof.Machine.execWrOwCmd v s
  | .wrOwStat v => Sys2Proof.Machine.execWrOwStat v s
  | .wrOwRdata v => Sys2Proof.Machine.execWrOwRdata v s
  | .wrTxStat v => Sys2Proof.Machine.execWrTxStat v s
  | .wrRxStat v => Sys2Proof.Machine.execWrRxStat v s
  | .wrPeer v => Sys2Proof.Machine.execWrPeer v s
  | .wrBeatCnt v => Sys2Proof.Machine.execWrBeatCnt v s
  | .wrFrame v => Sys2Proof.Machine.execWrFrame v s
  | .wrBtnStat v => Sys2Proof.Machine.execWrBtnStat v s
  | .wrHold v => Sys2Proof.Machine.execWrHold v s
  | .rdRsvd off => Sys2Proof.Machine.execRdRsvd off s
  | .wrRsvd off v => Sys2Proof.Machine.execWrRsvd off v s

end Sys2Proof.Machine
end

