-- ==== Sys2Proof/Machine/Step.lean ====
section
/-! DEFINITION. One clock cycle (00_scope.md R14): the cycle's host access, or none, is taken from the host's script and run; `rst`
overrides it (70_reset_and_hazards.md R227). The block has no program counter and fetches nothing (10_state.md R26): the
host's accesses are its instructions (log 4). -/

namespace Sys2Proof.Machine

open Sys2Proof

/-- A cycle with no host access. -/
def quietStep (s : State) : State := if s.rst then resetCycle s.taken none else s.taken.cycleNext

/-- A cycle with the access `i`. -/
def accessStep (i : Instr) (s : State) : Host.Outcome State Fault Refusal :=
  if s.rst then .next (resetCycle s.taken (busReadOf s i)) else exec i s.taken

/-- One step is one clock cycle. -/
def step (s : State) : Host.Outcome State Fault Refusal :=
  if s.params.Legal then
    match s.access with
    | none => .next (quietStep s)
    | some op =>
      match decode op with
      | .ok i => accessStep i s
      | .error e => .refused (refusalOf e)
  else .refused .illegalParameters

/-- `s` with the instruction of a table word as the host's access of the very next cycle, and `rst` 0 in that cycle. The words
no row of the table has, which are no bus access, leave `s` as it is. -/
def State.withFetchWord (s : State) (nbits w : Nat) : State :=
  match hostOpOfBytes (tableBytes nbits w) with
  | .ok op => { s with hostQ := some op :: s.hostQ.tail, rstQ := false :: s.rstQ.tail }
  | .error _ => s

end Sys2Proof.Machine
end

