-- ==== Sys2Proof/Safety.lean ====
section
/-! DEFINITION. The terms the claims use: runs of cycles, which instructions are commands or reads, the lengths of the timed
operations as the spec states them, and the invariant of the block's state. -/

namespace Sys2Proof.Machine

open Sys2Proof

/-- `tr` is a run of `n` cycles in which `rst` stays 0: `tr k` is the state during its cycle `k` (00_scope.md R14). -/
def Run (tr : Nat → State) (n : Nat) : Prop :=
  ∀ k, k < n → (tr k).rst = false ∧ step (tr k) = .next (tr (k + 1))

/-- The instruction is a one-wire command: a write of OW_CMD with `RSV` = 0 (40_onewire.md R117). -/
def isCommand : Instr → Bool
  | .nop _ | .reset _ | .writeBit _ | .readBit _ | .writeByte _ | .readByte _ | .driveHigh _ | .release _ => true
  | .wrOwCmd v => cmdRsv v == 0
  | .rdCtrl | .rdIfg | .rdOwCmd | .rdOwStat | .rdOwRdata | .rdTxStat | .rdRxStat | .rdPeer | .rdBeatCnt | .rdFrame
  | .rdBtnStat | .rdHold | .wrCtrl _ | .wrIfg _ | .wrOwStat _ | .wrOwRdata _ | .wrTxStat _ | .wrRxStat _ | .wrPeer _
  | .wrBeatCnt _ | .wrFrame _ | .wrBtnStat _ | .wrHold _ | .rdRsvd _ | .wrRsvd _ _ => false

/-- The instruction is a write of OW_CMD, whatever its word (R118). -/
def writesOwCmd : Instr → Bool
  | .nop _ | .reset _ | .writeBit _ | .readBit _ | .writeByte _ | .readByte _ | .driveHigh _ | .release _
  | .wrOwCmd _ => true
  | .rdCtrl | .rdIfg | .rdOwCmd | .rdOwStat | .rdOwRdata | .rdTxStat | .rdRxStat | .rdPeer | .rdBeatCnt | .rdFrame
  | .rdBtnStat | .rdHold | .wrCtrl _ | .wrIfg _ | .wrOwStat _ | .wrOwRdata _ | .wrTxStat _ | .wrRxStat _ | .wrPeer _
  | .wrBeatCnt _ | .wrFrame _ | .wrBtnStat _ | .wrHold _ | .rdRsvd _ | .wrRsvd _ _ => false

/-- The instruction is a read (20_memory.md R85). -/
def isReadAccess : Instr → Bool
  | .rdCtrl | .rdIfg | .rdOwCmd | .rdOwStat | .rdOwRdata | .rdTxStat | .rdRxStat | .rdPeer | .rdBeatCnt | .rdFrame
  | .rdBtnStat | .rdHold | .rdRsvd _ => true
  | .nop _ | .reset _ | .writeBit _ | .readBit _ | .writeByte _ | .readByte _ | .driveHigh _ | .release _ | .wrOwCmd _
  | .wrCtrl _ | .wrIfg _ | .wrOwStat _ | .wrOwRdata _ | .wrTxStat _ | .wrRxStat _ | .wrPeer _
  | .wrBeatCnt _ | .wrFrame _ | .wrBtnStat _ | .wrHold _ | .wrRsvd _ _ => false

/-- Whether the units raise an event's flag in this cycle (60_exceptions.md R205). The host's rejected command raises the last. -/
def unitRaises (s : State) : Event → Bool
  | .tick => beat s
  | .owDone => owFinishes s.ow
  | .rx => rxPublishes s
  | .btn => anyHonoured s
  | .rxErr => rxAborts s
  | .owCmdErr => false

/-- The length of a write slot of bit `b`: `L_W1` or `L_W0` (R130). -/
def writeSlotLen (p : Params) (b : Bool) : Nat :=
  if b then p.tW1l * p.clkPerUs + p.tW1r * p.clkPerUs else p.tW0l * p.clkPerUs + p.tW0r * p.clkPerUs

/-- The low time of a write slot of bit `b` (R116). -/
def writeLowLen (p : Params) (b : Bool) : Nat := if b then p.tW1l * p.clkPerUs else p.tW0l * p.clkPerUs

/-- The length of a read slot, `L_R` (R133). -/
def readSlotLen (p : Params) : Nat := p.tRl * p.clkPerUs + p.tRs * p.clkPerUs + p.tRrest * p.clkPerUs

/-- The length of a RESET, `L_RESET` (R127). -/
def resetLen (p : Params) : Nat := p.tRstl * p.clkPerUs + p.tMsp * p.clkPerUs + p.tPres * p.clkPerUs

/-- Where slot `i` of a WRITE_BYTE of `x` starts: the sum of the lengths of the slots before it (R136). -/
def writeSlotStart (p : Params) (x : Byte) : Nat → Nat
  | 0 => 0
  | i + 1 => writeSlotStart p x i + writeSlotLen p (x.getLsbD i)

/-- `L`, the number of cycles of an accepted operation (R123, R127, R130, R133, R136). -/
def opLen (p : Params) (data : Byte) : OwOp → Nat
  | .reset => resetLen p
  | .writeBit => writeSlotLen p (data.getLsbD 0)
  | .readBit => readSlotLen p
  | .writeByte => writeSlotStart p data 8
  | .readByte => 8 * readSlotLen p
  | .nop | .driveHigh | .release => 0

/-- The phases of each operation (R116, R125, R129, R132, R134, R135). -/
def phaseOfOp : OwOp → OwPhase → Bool
  | .reset, .rstLow | .reset, .rstRec | .reset, .rstPres => true
  | .writeBit, .wrLow | .writeBit, .wrRel | .writeByte, .wrLow | .writeByte, .wrRel => true
  | .readBit, .rdLow | .readBit, .rdSamp | .readBit, .rdRest => true
  | .readByte, .rdLow | .readByte, .rdSamp | .readByte, .rdRest => true
  | _, _ => false

/-- The one-wire master's invariant (R27 to R30, R121). -/
structure OneWireInv (p : Params) (ow : OneWire) : Prop where
  /-- "While `ow_busy` = 0, `ow_phase` = 0" (R30), and a running operation is in a phase of its own. -/
  idle_phase : ow.busy = false → ow.phase = .none ∧ ow.cnt = 0
  busy_phase : ow.busy = true → phaseOfOp ow.op ow.phase = true
  /-- "`ow_cnt` is never 0 while `ow_busy = 1`" (R121), and it never exceeds its phase's duration (R119). -/
  busy_cnt : ow.busy = true → 1 ≤ ow.cnt ∧ ow.cnt ≤ phaseDur p (slotBit ow) ow.phase
  /-- The line has the phase's role while an operation runs, and the idle role otherwise (R119, R28). -/
  busy_role : ow.busy = true → ow.role = phaseRole ow.phase
  idle_role : ow.busy = false → ow.role = idleRole ow.idleHigh
  /-- Only the byte operations leave bit 0 (R134, R135). -/
  single_bit : ow.busy = true → ow.op = .writeBit ∨ ow.op = .readBit ∨ ow.op = .reset → ow.bit = 0

/-- The button bank's invariant (R36, R38). -/
structure ButtonsInv (p : Params) (b : Buttons) : Prop where
  db_range : ∀ k, (quadGet b.db k).toNat ≤ p.debounceWindow
  local_range : b.localVal.toNat ≤ 4
  hold_range : b.hold.toNat ≤ p.holdWindow
  /-- "`local ≠ 0 ⇒ hold ≥ 1`" (R38). -/
  local_held : b.localVal ≠ 0 → 1 ≤ b.hold.toNat

/-- The transmitter's invariant (R39 to R42, R172, R173). -/
structure TxInv (p : Params) (tx : Tx) : Prop where
  slot_range : tx.slot < p.framePeriod
  car_range : tx.carCnt < p.carrierHalfCycles
  snap_range : tx.snap.toNat ≤ 4
  /-- No frame of the idle value (R171). -/
  frame_value : tx.frameActive = true → tx.snap ≠ 0
  /-- `transmit` is the slot action of the slot being sent, in every cycle (R172, R173). -/
  transmit_slot : tx.transmit = (tx.frameActive && slotCarrier tx.slot tx.snap)

/-- The receiver's invariant (R45, R185). -/
structure RxInv (p : Params) (rx : Rx) : Prop where
  idle_cnt : rx.state = .idle → rx.cnt = 0
  /-- "`rx_cnt` is never 0 outside IDLE" (R185), and its range (R45). -/
  busy_cnt : rx.state ≠ .idle → 1 ≤ rx.cnt ∧ rx.cnt ≤ max p.rxHalfCycles p.rxSlotCycles

/-- The peer state's invariant (R46, R47). -/
structure PeerInv (p : Params) (peer : Peer) : Prop where
  age_range : peer.age ≤ ageMax p
  /-- "`age > SILENCE ⇒ peer_valid = 0 ∧ peer_val = 0`" (R47). -/
  stale : silence p < peer.age → peer.valid = false ∧ peer.val = 0
  /-- "`peer_valid` = 0 means no state: then `peer_val` = 0" (R46). -/
  no_state : peer.valid = false → peer.val = 0

/-- The invariant of the block. -/
structure State.Inv (s : State) : Prop where
  legal : s.params.Legal
  /-- The reserved bits of CTRL and IFG hold 0 (R53, R55, R58). -/
  ctrl_reserved : s.ctrl &&& ~~~0x0F0F#16 = 0
  ifg_reserved : s.ifg &&& ~~~0x003F#16 = 0
  ow : OneWireInv s.params s.ow
  /-- The range of `div` (R34). -/
  div_range : s.tick.div < s.params.slotCycles
  btn : ButtonsInv s.params s.btn
  tx : TxInv s.params s.tx
  rx : RxInv s.params s.rx
  peer : PeerInv s.params s.peer
  /-- One level per synchronizer flip-flop (R15). -/
  sync_stages : s.sync.length = s.params.syncStages

end Sys2Proof.Machine
end

