-- ==== Sys2Proof/Certificates/Slice0/Obligations.lean ====
section
/-! DEFINITION. The statements for the provers. `s.cycleNext` is the next state of a cycle with no host access; the statements
about the units pin it field by field, for every access the host may make in the cycle. -/

open Sys2Proof Sys2Proof.Machine

/-! ## Decoding and the step -/

/-- 30_encoding.md R98 to R102: no bit of a well-formed instruction's encoding is dropped. -/
def Obligations.DecodeOfEncodeIsTheInstruction : Prop :=
  ∀ i : Instr, i.WellFormed → decode (encode i) = .ok i

/-- R76, R97, R102: every access of the contract is a well-formed instruction that the bus port cannot tell from it, and every
other access is rejected. -/
def Obligations.ContractAccessesDecodeAndOthersAreRejected : Prop :=
  ∀ op : HostOp,
    (inContract op = true → ∃ i, decode op = .ok i ∧ i.WellFormed ∧ portView (encode i) = portView op) ∧
    (inContract op = false → ∃ e, decode op = .error e)

/-- Words written out from R98, R99, R102 and R48. -/
def Obligations.WrittenOutWordsDecode : Prop :=
  decodeTableWord 16 0x0000 = some (.nop 0x00) ∧ decodeTableWord 16 0x0001 = some (.reset 0x00) ∧
  decodeTableWord 16 0x0102 = some (.writeBit 0x01) ∧ decodeTableWord 16 0xCC04 = some (.writeByte 0xCC) ∧
  decodeTableWord 16 0x0006 = some (.driveHigh 0x00) ∧ decodeTableWord 16 0x0009 = some (.wrOwCmd 0x0009) ∧
  decodeTableWord 8 0x06 = some .rdOwStat ∧ decodeTableWord 8 0x0E = some .rdPeer ∧
  decodeTableWord 8 0x1A = some (.rdRsvd 0x1A) ∧ decodeTableWord 24 0x0F0F20 = some (.wrCtrl 0x0F0F) ∧
  decodeTableWord 24 0x000222 = some (.wrIfg 0x0002) ∧ decodeTableWord 8 0x21 = none

/-- A cycle without `rst` runs the instruction its access decodes to, with that access taken off the host's script; a cycle
with no access only advances the units. The scripts are the model's own (logs 3, 4). -/
def Obligations.StepRunsTheDecodedInstruction : Prop :=
  ∀ s : State, s.params.Legal → s.rst = false →
    (∀ op i, s.access = some op → decode op = .ok i →
      step s = exec i { s with hostQ := s.hostQ.tail, rstQ := s.rstQ.tail }) ∧
    (s.access = none → step s = .next ({ s with hostQ := s.hostQ.tail, rstQ := s.rstQ.tail } : State).cycleNext)

/-- R76: the refusals. That they come even in a cycle with `rst` is the model's choice (log 15). -/
def Obligations.AccessesOutsideTheContractAreRefused : Prop :=
  ∀ s : State, s.params.Legal → ∀ (desc : BitVec 6) (wdata : Word),
    (s.access = some (.acc true desc wdata) → step s = .refused .byteAccess) ∧
    (s.access = some (.acc false desc wdata) → desc.getLsbD 0 = true → step s = .refused .oddOffset)

/-- R244, I11. That the refusal comes even in a cycle with `rst` is the model's choice (log 15). -/
def Obligations.IllegalParametersAreRefused : Prop :=
  ∀ s : State, ¬ s.params.Legal → step s = .refused .illegalParameters

/-- R93, R204: no access of the contract stops the machine, at any offset, in any state. -/
def Obligations.ContractCyclesComplete : Prop :=
  ∀ s : State, s.params.Legal → (∀ op, s.access = some op → inContract op = true) → ∃ t, step s = .next t

/-- Every access takes one cycle: it completes, and never touches the parameters (R8, R87, R97). That the parameters stand in
the state (log 5), and the clauses on the synchronizer chain (log 1), the pin script and the cycle count (log 2) and the scripts of
`rst` and of the host (logs 3, 4), are the model's choice: these are its own fields. -/
def Obligations.EveryAccessCompletesInItsCycle : Prop :=
  ∀ (i : Instr) (s : State), ∃ t, exec i s = .next t ∧
    t.params = s.params ∧ t.hostQ = s.hostQ ∧ t.rstQ = s.rstQ ∧ t.pinQ = s.pinQ.tail ∧ t.cycle = s.cycle + 1 ∧
    t.sync = s.pins :: s.sync.dropLast

/-- R15: `sample(x)` is the pin level `SYNC_STAGES` cycles earlier. The chain that holds the levels is the model's (log 1). -/
def Obligations.SampleIsThePinSyncStagesEarlier : Prop :=
  ∀ (tr : Nat → State) (n : Nat), Run tr n → (tr 0).sync.length = (tr 0).params.syncStages →
    1 ≤ (tr 0).params.syncStages →
    ∀ k, k + (tr 0).params.syncStages ≤ n → (tr (k + (tr 0).params.syncStages)).sample = (tr k).pins

/-! ## Reset -/

/-- R227: the next state of a cycle with `rst` is the reset state, whatever the access; a read still shows the old state.
The places of the synchronizers (log 1) and of `bus_rdata`, none without a read (logs 6, 16), are the model's choice. -/
def Obligations.RstMakesTheResetState : Prop :=
  ∀ s : State, s.params.Legal → s.rst = true → (∀ op, s.access = some op → inContract op = true) →
    ∃ t, step s = .next t ∧ t.params = s.params ∧ t.ctrl = 0x0000 ∧ t.ifg = 0x0000 ∧
      t.ow = (State.resetOf s.params).ow ∧ t.tick = (State.resetOf s.params).tick ∧
      t.btn = (State.resetOf s.params).btn ∧ t.tx = (State.resetOf s.params).tx ∧ t.rx = (State.resetOf s.params).rx ∧
      t.peer = (State.resetOf s.params).peer ∧ t.sync = (State.resetOf s.params).sync ∧
      (∀ op i, s.access = some op → decode op = .ok i → t.busRdata = busReadOf s i) ∧
      (s.access = none → t.busRdata = none)

/-- R228: the reset value of every field, for every parameter set. -/
def Obligations.ResetStateOfEveryField : Prop :=
  ∀ p : Params,
    let s := State.resetOf p
    s.ow.role = .released ∧ s.ow.idleHigh = false ∧ s.ow.busy = false ∧ s.ow.op = .nop ∧ s.ow.phase = .none ∧
    s.ow.cnt = 0 ∧ s.ow.bit = 0 ∧ s.ow.wdata = 0x00 ∧ s.ow.shift = 0x00 ∧ s.ow.s1 = false ∧ s.ow.result = .none ∧
    s.ow.rdata = 0x00 ∧
    s.tick = { div := 0, beatCnt := 0 } ∧
    (∀ k, quadGet s.btn.db k = 0 ∧ s.btn.prev.getLsbD k = p.btnActiveLow) ∧ s.btn.localVal = 0 ∧ s.btn.hold = 0 ∧
    s.tx.slot = p.framePeriod - 1 ∧ s.tx.snap = 0 ∧ s.tx.frameActive = false ∧ s.tx.transmit = false ∧
    s.tx.carCnt = 0 ∧ s.tx.carPhase = true ∧
    s.rx = { prev := true, state := .idle, cnt := 0, acc := 0 } ∧
    s.peer = { val := 0, valid := false, age := 2 * p.framePeriod + 1 } ∧ s.ctrl = 0x0000 ∧ s.ifg = 0x0000

/-- R229: what each register reads in the reset state, whatever the synchronized inputs; and the levels the synchronizers give
in the first `SYNC_STAGES` = 2 cycles. -/
def Obligations.RegistersReadAfterReset : Prop :=
  ∀ l : List Pins,
    let s : State := { State.reset with sync := l }
    let reads (i : Instr) (w : Word) := exec i s = .next { s.cycleNext with busRdata := some w }
    reads .rdCtrl 0x0000 ∧ reads .rdIfg 0x0000 ∧ reads .rdOwCmd 0x0000 ∧
    reads .rdOwStat (if s.sample.ow then 0x0040 else 0x0000) ∧ reads .rdOwRdata 0x0000 ∧ reads .rdTxStat 0x0000 ∧
    reads .rdRxStat (if s.sample.ir then 0x0100 else 0x0000) ∧ reads .rdPeer 0x1900 ∧ reads .rdBeatCnt 0x0000 ∧
    reads .rdFrame 0x000B ∧ reads .rdBtnStat (0#4 ++ s.sample.btn ++ 0#8) ∧ reads .rdHold 0x0000 ∧
    (∀ off, reservedOffset off = true → reads (.rdRsvd off) 0x0000) ∧
    State.reset.sample = { ow := true, ir := true, btn := 0xF } ∧
    State.reset.cycleNext.sample = { ow := true, ir := true, btn := 0xF }

/-- R230. -/
def Obligations.OutputsAreQuietAfterReset : Prop :=
  ∀ p : Params, (State.resetOf p).owOe = false ∧ (State.resetOf p).irTxO = false ∧
    ∀ l, (State.resetOf p).irq l = false

/-- The reset state meets the invariant. -/
def Obligations.ResetStateMeetsTheInvariant : Prop :=
  ∀ p : Params, p.Legal → (State.resetOf p).Inv

/-- Every step keeps the invariant, whatever the access, the inputs and `rst`. -/
def Obligations.EveryStepKeepsTheInvariant : Prop :=
  ∀ s t : State, s.Inv → step s = .next t → t.Inv

/-! ## Registers: reads and writes -/

/-- R53, R55, R78: CTRL. -/
def Obligations.CtrlRegister : Prop :=
  ∀ s : State,
    (∃ w, exec .rdCtrl s = .next { s.cycleNext with busRdata := some w } ∧
      ∀ k, k < 16 → w.getLsbD k = (s.ctrl.getLsbD k && decide (k < 4 ∨ 8 ≤ k ∧ k < 12))) ∧
    (∀ v, ∃ t, exec (.wrCtrl v) s = .next t ∧ t = { s.cycleNext with ctrl := v &&& 0x0F0F } ∧
      (∀ k, k < 16 → t.ctrl.getLsbD k = (v.getLsbD k && decide (k < 4 ∨ 8 ≤ k ∧ k < 12))) ∧
      t.tickEn = v.getLsbD 0 ∧ t.txEn = v.getLsbD 1 ∧ t.rxEn = v.getLsbD 2 ∧ t.btnEn = v.getLsbD 3)

/-- R58, R79: IFG. -/
def Obligations.IfgRegister : Prop :=
  ∀ s : State,
    (∃ w, exec .rdIfg s = .next { s.cycleNext with busRdata := some w } ∧
      ∀ k, k < 16 → w.getLsbD k = (s.ifg.getLsbD k && decide (k < 6))) ∧
    (∀ v, ∃ w, exec (.wrIfg v) s = .next { s.cycleNext with ifg := w } ∧
      w = ((s.ifg &&& ~~~(v &&& 0x003F)) ||| raisedByUnits s) &&& 0x003F ∧
      ∀ k, w.getLsbD k = (decide (k < 6) && (s.ifg.getLsbD k && !v.getLsbD k || (raisedByUnits s).getLsbD k)))

/-- R60: OW_STAT, with the numbers of `ow_role` (R27), `ow_result` (R32) and `ow_op` (R99). -/
def Obligations.OwStatRegister : Prop :=
  (∀ s : State,
    (∃ w : Word, exec .rdOwStat s = .next { s.cycleNext with busRdata := some w } ∧
      w.getLsbD 0 = s.ow.busy ∧
      (s.ow.role = .released → w.extractLsb' 1 2 = 0) ∧ (s.ow.role = .driveLow → w.extractLsb' 1 2 = 1) ∧
      (s.ow.role = .driveHigh → w.extractLsb' 1 2 = 2) ∧
      w.getLsbD 3 = s.ow.idleHigh ∧
      (s.ow.result = .none → w.extractLsb' 4 2 = 0) ∧ (s.ow.result = .present → w.extractLsb' 4 2 = 1) ∧
      (s.ow.result = .noResponse → w.extractLsb' 4 2 = 2) ∧ (s.ow.result = .lineStuck → w.extractLsb' 4 2 = 3) ∧
      w.getLsbD 6 = s.sample.ow ∧
      (s.ow.op = .nop → w.extractLsb' 8 3 = 0) ∧ (s.ow.op = .reset → w.extractLsb' 8 3 = 1) ∧
      (s.ow.op = .writeBit → w.extractLsb' 8 3 = 2) ∧ (s.ow.op = .readBit → w.extractLsb' 8 3 = 3) ∧
      (s.ow.op = .writeByte → w.extractLsb' 8 3 = 4) ∧ (s.ow.op = .readByte → w.extractLsb' 8 3 = 5) ∧
      (s.ow.op = .driveHigh → w.extractLsb' 8 3 = 6) ∧ (s.ow.op = .release → w.extractLsb' 8 3 = 7) ∧
      w.extractLsb' 11 3 = s.ow.bit ∧ w.extractLsb' 14 2 = 0) ∧
    ∀ v, exec (.wrOwStat v) s = .next s.cycleNext) ∧
  ∀ (p : Params) (l : List Pins), readOwStat { State.resetOf p with sync := l } =
    if ({ State.resetOf p with sync := l } : State).sample.ow then 0x0040 else 0x0000

/-- R61: OW_RDATA. -/
def Obligations.OwRdataRegister : Prop :=
  (∀ s : State,
    (∃ w : Word, exec .rdOwRdata s = .next { s.cycleNext with busRdata := some w } ∧
      w.extractLsb' 0 8 = s.ow.rdata ∧ w.extractLsb' 8 8 = 0) ∧
    ∀ v, exec (.wrOwRdata v) s = .next s.cycleNext) ∧
  ∀ p : Params, readOwRdata (State.resetOf p) = 0x0000

/-- R62: TX_STAT. -/
def Obligations.TxStatRegister : Prop :=
  (∀ s : State,
    (∃ w : Word, exec .rdTxStat s = .next { s.cycleNext with busRdata := some w } ∧
      w.extractLsb' 0 4 = s.btn.localVal ∧ w.extractLsb' 4 4 = s.tx.snap ∧ w.getLsbD 8 = s.tx.transmit ∧
      w.getLsbD 9 = s.tx.frameActive ∧ w.getLsbD 10 = (s.tx.transmit && s.tx.carPhase) ∧ w.extractLsb' 11 5 = 0) ∧
    ∀ v, exec (.wrTxStat v) s = .next s.cycleNext) ∧
  ∀ p : Params, readTxStat (State.resetOf p) = 0x0000

/-- R63: RX_STAT, with the numbers of `rx_state` (R44). -/
def Obligations.RxStatRegister : Prop :=
  (∀ s : State,
    (∃ w : Word, exec .rdRxStat s = .next { s.cycleNext with busRdata := some w } ∧
      (s.rx.state = .idle → w.extractLsb' 0 3 = 0) ∧ (s.rx.state = .start → w.extractLsb' 0 3 = 1) ∧
      (s.rx.state = .b0 → w.extractLsb' 0 3 = 2) ∧ (s.rx.state = .b1 → w.extractLsb' 0 3 = 3) ∧
      (s.rx.state = .b2 → w.extractLsb' 0 3 = 4) ∧ (s.rx.state = .b3 → w.extractLsb' 0 3 = 5) ∧
      (s.rx.state = .mark → w.extractLsb' 0 3 = 6) ∧ (s.rx.state = .stop → w.extractLsb' 0 3 = 7) ∧
      w.getLsbD 3 = false ∧ w.extractLsb' 4 4 = s.rx.acc ∧
      w.getLsbD 8 = s.sample.ir ∧ w.extractLsb' 9 7 = 0) ∧
    ∀ v, exec (.wrRxStat v) s = .next s.cycleNext) ∧
  ∀ (p : Params) (l : List Pins), readRxStat { State.resetOf p with sync := l } =
    if ({ State.resetOf p with sync := l } : State).sample.ir then 0x0100 else 0x0000

/-- R64: PEER; its age field is exact where the age is in its range. -/
def Obligations.PeerRegister : Prop :=
  (∀ s : State,
    (∃ w : Word, exec .rdPeer s = .next { s.cycleNext with busRdata := some w } ∧
      w.extractLsb' 0 4 = s.peer.val ∧ w.getLsbD 4 = s.peer.valid ∧ w.extractLsb' 5 3 = 0 ∧
      (s.params.Legal → s.peer.age ≤ ageMax s.params → (w.extractLsb' 8 8).toNat = s.peer.age)) ∧
    ∀ v, exec (.wrPeer v) s = .next s.cycleNext) ∧
  (∀ p : Params, readPeer (State.resetOf p) = BitVec.ofNat 8 (ageMax p) ++ 0#8) ∧ readPeer State.reset = 0x1900

/-- R65: BEAT_CNT. -/
def Obligations.BeatCntRegister : Prop :=
  (∀ s : State, exec .rdBeatCnt s = .next { s.cycleNext with busRdata := some s.tick.beatCnt } ∧
    ∀ v, exec (.wrBeatCnt v) s = .next s.cycleNext) ∧
  ∀ p : Params, readBeatCnt (State.resetOf p) = 0x0000

/-- R66: FRAME; its slot field is exact where the slot is in its range. -/
def Obligations.FrameRegister : Prop :=
  (∀ s : State,
    (∃ w : Word, exec .rdFrame s = .next { s.cycleNext with busRdata := some w } ∧ w.extractLsb' 8 8 = 0 ∧
      (s.params.Legal → s.tx.slot < s.params.framePeriod → (w.extractLsb' 0 8).toNat = s.tx.slot)) ∧
    ∀ v, exec (.wrFrame v) s = .next s.cycleNext) ∧
  ∀ p : Params, p.Legal → (readFrame (State.resetOf p)).toNat = p.framePeriod - 1

/-- R67: BTN_STAT. -/
def Obligations.BtnStatRegister : Prop :=
  (∀ s : State,
    (∃ w : Word, exec .rdBtnStat s = .next { s.cycleNext with busRdata := some w } ∧
      (∀ k : Fin 4, w.getLsbD k = (quadGet s.btn.db k != 0) ∧ w.getLsbD (8 + k) = s.sample.btn.getLsbD k) ∧
      w.extractLsb' 4 4 = 0 ∧ w.extractLsb' 12 4 = 0) ∧
    ∀ v, exec (.wrBtnStat v) s = .next s.cycleNext) ∧
  ∀ (p : Params) (l : List Pins), readBtnStat { State.resetOf p with sync := l } =
    0#4 ++ ({ State.resetOf p with sync := l } : State).sample.btn ++ 0#8

/-- R68: HOLD. -/
def Obligations.HoldRegister : Prop :=
  (∀ s : State, exec .rdHold s = .next { s.cycleNext with busRdata := some s.btn.hold } ∧
    ∀ v, exec (.wrHold v) s = .next s.cycleNext) ∧
  ∀ p : Params, readHold (State.resetOf p) = 0x0000

/-- R84: the reserved offsets. -/
def Obligations.ReservedOffsetsReadZeroAndIgnoreWrites : Prop :=
  ∀ (s : State) (off : BitVec 5), off = 0x18#5 ∨ off = 0x1A#5 ∨ off = 0x1C#5 ∨ off = 0x1E#5 →
    exec (.rdRsvd off) s = .next { s.cycleNext with busRdata := some 0x0000 } ∧
    ∀ v, exec (.wrRsvd off v) s = .next s.cycleNext

/-- R85: a read changes nothing a cycle without an access would not, and only CTRL, IFG and OW_CMD writes do. A read's word is
R77's; that it stands in `busRdata`, which is none after any other access, is the model's choice (log 6). -/
def Obligations.OnlyThreeWritesHaveSideEffects : Prop :=
  ∀ (i : Instr) (s : State), writesOwCmd i = false → (∀ v, i ≠ .wrCtrl v) → (∀ v, i ≠ .wrIfg v) →
    ∃ t, exec i s = .next t ∧ t = { s.cycleNext with busRdata := t.busRdata } ∧
      t.busRdata = busReadOf s i ∧ (isReadAccess i = true ↔ t.busRdata ≠ none)

/-- R80, R59: a write of OW_CMD is the one-wire command its word encodes; nothing is stored: a read gives 0 in every state. -/
def Obligations.OwCmdWriteIsACommand : Prop :=
  ∀ (v : Word) (s : State),
    (∃ i, decode (.cmd v) = .ok i ∧ exec (.wrOwCmd v) s = exec i s) ∧
    (s.ow.busy = false → cmdRsv v = 0 → exec (.wrOwCmd v) s = .next { s.cycleNext with
      ow := acceptOp s.params (opOfCode (v.extractLsb' 0 3)) (v.extractLsb' 8 8) s.ow }) ∧
    exec .rdOwCmd s = .next { s.cycleNext with busRdata := some 0x0000 }

/-! ## The one-wire master -/

/-- R118: a write of OW_CMD while busy, or with `RSV` ≠ 0, only raises OW_CMD_ERR. -/
def Obligations.RejectedCommandOnlyRaisesItsFlag : Prop :=
  ∀ (i : Instr) (s : State), writesOwCmd i = true → s.ow.busy = true ∨ isCommand i = false →
    exec i s = .next { s.cycleNext with ifg := s.cycleNext.ifg ||| 0x0020 }

/-- R117, R120: what the acceptance of each timed operation makes of the state. -/
def Obligations.AcceptedTimedOperationsStart : Prop :=
  ∀ (s : State) (data : Byte), s.ow.busy = false →
    exec (.reset data) s = .next { s.cycleNext with ow := { s.ow with
      busy := true, op := .reset, bit := 0, shift := 0x00, result := .none,
      phase := .rstLow, cnt := s.params.tRstl * s.params.clkPerUs, role := .driveLow } } ∧
    exec (.writeBit data) s = .next { s.cycleNext with ow := { s.ow with
      busy := true, op := .writeBit, bit := 0, shift := 0x00, wdata := if data.getLsbD 0 then 1 else 0,
      phase := .wrLow, cnt := writeLowLen s.params (data.getLsbD 0), role := .driveLow } } ∧
    exec (.readBit data) s = .next { s.cycleNext with ow := { s.ow with
      busy := true, op := .readBit, bit := 0, shift := 0x00,
      phase := .rdLow, cnt := s.params.tRl * s.params.clkPerUs, role := .driveLow } } ∧
    exec (.writeByte data) s = .next { s.cycleNext with ow := { s.ow with
      busy := true, op := .writeByte, bit := 0, shift := 0x00, wdata := data,
      phase := .wrLow, cnt := writeLowLen s.params (data.getLsbD 0), role := .driveLow } } ∧
    exec (.readByte data) s = .next { s.cycleNext with ow := { s.ow with
      busy := true, op := .readByte, bit := 0, shift := 0x00,
      phase := .rdLow, cnt := s.params.tRl * s.params.clkPerUs, role := .driveLow } }

/-- R139: NOP. -/
def Obligations.NopChangesNothing : Prop :=
  decode (.cmd 0x0000) = .ok (.nop 0x00) ∧
  ∀ (s : State) (data : Byte),
    (s.ow.busy = false → exec (.nop data) s = .next s.cycleNext ∧ s.cycleNext.ow = s.ow) ∧
    (s.ow.busy = true → exec (.nop data) s = .next { s.cycleNext with ifg := s.cycleNext.ifg ||| 0x0020 }) ∧
    (∀ v i, cmdOpField v = 0 → cmdRsv v ≠ 0 → decode (.cmd v) = .ok i →
      exec i s = .next { s.cycleNext with ifg := s.cycleNext.ifg ||| 0x0020 })

/-- R137: DRIVE_HIGH makes drive-high the role of the idle line from the next cycle on. -/
def Obligations.DriveHighDrivesTheIdleLine : Prop :=
  ∀ (s : State) (data : Byte), s.ow.busy = false →
    ∃ t, exec (.driveHigh data) s = .next t ∧
      t = { s.cycleNext with ow := { s.ow with idleHigh := true, role := .driveHigh, op := .driveHigh } } ∧
      t.owOe = true ∧ t.owO = true ∧ t.ow.busy = false

/-- R138: RELEASE. -/
def Obligations.ReleaseReleasesTheLine : Prop :=
  decode (.cmd 0x0007) = .ok (.release 0x00) ∧
  ∀ (s : State) (data : Byte), s.ow.busy = false →
    ∃ t, exec (.release data) s = .next t ∧
      t = { s.cycleNext with ow := { s.ow with idleHigh := false, role := .released, op := .release } } ∧
      t.owOe = false ∧
      (s.ow.role = .released → s.ow.idleHigh = false → t = { s.cycleNext with ow := { s.ow with op := .release } })

/-- R121: in the middle of a phase the engine only counts, and with no operation it does nothing; in neither case does anything
raise OW_DONE_IF (R122, R205; "Acceptance sets no flag", R117). -/
def Obligations.EngineCountsDownItsPhase : Prop :=
  ∀ (i : Instr) (s : State), ∃ t, exec i s = .next t ∧
    (s.ow.busy = true → 1 < s.ow.cnt → t.ow = { s.ow with cnt := s.ow.cnt - 1 }) ∧
    (s.ow.busy = false → writesOwCmd i = false → t.ow = s.ow) ∧
    (s.ow.busy = false ∨ 1 < s.ow.cnt → t.flag .owDone = true → s.flag .owDone = true)

/-- R116, R120, R134, R135: the end action of every phase that another phase follows, with the role and the duration of the
phase it enters, and without OW_DONE_IF, which only the finish raises (R122, R205). -/
def Obligations.PhaseEndsEnterTheNextPhase : Prop :=
  ∀ (i : Instr) (s : State), s.ow.busy = true → s.ow.cnt ≤ 1 →
    ∃ t, exec i s = .next t ∧
    (s.ow.phase = .rstLow → t.ow = { s.ow with
      phase := .rstRec, role := .released, cnt := s.params.tMsp * s.params.clkPerUs }) ∧
    (s.ow.phase = .rstRec → t.ow = { s.ow with
      phase := .rstPres, role := .released, cnt := s.params.tPres * s.params.clkPerUs, s1 := s.sample.ow }) ∧
    (s.ow.phase = .wrLow → t.ow = { s.ow with
      phase := .wrRel, role := .released,
      cnt := if s.ow.wdata.getLsbD s.ow.bit.toNat then s.params.tW1r * s.params.clkPerUs
        else s.params.tW0r * s.params.clkPerUs }) ∧
    (s.ow.phase = .wrRel → s.ow.op = .writeByte → s.ow.bit.toNat < 7 → t.ow = { s.ow with
      phase := .wrLow, role := .driveLow, bit := s.ow.bit + 1,
      cnt := if s.ow.wdata.getLsbD (s.ow.bit.toNat + 1) then s.params.tW1l * s.params.clkPerUs
        else s.params.tW0l * s.params.clkPerUs }) ∧
    (s.ow.phase = .rdLow → t.ow = { s.ow with
      phase := .rdSamp, role := .released, cnt := s.params.tRs * s.params.clkPerUs }) ∧
    (s.ow.phase = .rdSamp →
      t.ow = { s.ow with
        phase := .rdRest, role := .released, cnt := s.params.tRrest * s.params.clkPerUs, shift := t.ow.shift } ∧
      ∀ k, k < 8 → t.ow.shift.getLsbD k = if k = s.ow.bit.toNat then s.sample.ow else s.ow.shift.getLsbD k) ∧
    (s.ow.phase = .rdRest → s.ow.op = .readByte → s.ow.bit.toNat < 7 → t.ow = { s.ow with
      phase := .rdLow, role := .driveLow, bit := s.ow.bit + 1, cnt := s.params.tRl * s.params.clkPerUs }) ∧
    (s.ow.phase = .rstLow ∨ s.ow.phase = .rstRec ∨ s.ow.phase = .wrLow ∨ s.ow.phase = .rdLow ∨ s.ow.phase = .rdSamp ∨
      (s.ow.phase = .wrRel ∧ s.ow.op = .writeByte ∧ s.ow.bit.toNat < 7) ∨
      (s.ow.phase = .rdRest ∧ s.ow.op = .readByte ∧ s.ow.bit.toNat < 7) →
      t.flag .owDone = true → s.flag .owDone = true)

/-- R122: the finish of a timed operation, for every access of its cycle. -/
def Obligations.FinishPublishesAndRaisesDone : Prop :=
  ∀ (i : Instr) (s : State), s.ow.busy = true → s.ow.cnt ≤ 1 →
    s.ow.phase = .rstPres ∨ (s.ow.phase = .wrRel ∧ ¬(s.ow.op = .writeByte ∧ s.ow.bit.toNat < 7)) ∨
      (s.ow.phase = .rdRest ∧ ¬(s.ow.op = .readByte ∧ s.ow.bit.toNat < 7)) →
    ∃ t, exec i s = .next t ∧ t.flag .owDone = true ∧
      t.ow = { s.ow with
        busy := false, phase := .none, cnt := 0, role := if s.ow.idleHigh then .driveHigh else .released,
        rdata := if s.ow.op = .readBit ∨ s.ow.op = .readByte then s.ow.shift else s.ow.rdata,
        result := if s.ow.phase = .rstPres then resetOutcome s.ow.s1 s.sample.ow else s.ow.result }

/-- R126: the outcome of a RESET. -/
def Obligations.ResetOutcomeFromItsTwoSamples : Prop :=
  ∀ (i : Instr) (s : State), s.ow.busy = true → s.ow.cnt ≤ 1 → s.ow.phase = .rstPres →
    ∃ t, exec i s = .next t ∧
      (s.ow.s1 = false → s.sample.ow = true → t.ow.result = .present) ∧
      (s.ow.s1 = true → s.sample.ow = true → t.ow.result = .noResponse) ∧
      (s.ow.s1 = false → s.sample.ow = false → t.ow.result = .lineStuck) ∧
      (s.ow.s1 = true → s.sample.ow = false → t.ow.result = .lineStuck)

/-- R123, R141: an accepted operation is busy for exactly its length, whatever the line does and the host writes, and then
`OW_DONE_IF` is set. -/
def Obligations.TimedOperationLastsItsLength : Prop :=
  ∀ (op : OwOp) (data : Byte) (s : State) (tr : Nat → State), isTimed op = true → s.params.Legal →
    s.ow.busy = false → exec (instrOfOp op data) s = .next (tr 0) → Run tr (opLen s.params data op) →
    (∀ k, k < opLen s.params data op → (tr k).ow.busy = true) ∧
    (tr (opLen s.params data op)).ow.busy = false ∧ (tr (opLen s.params data op)).flag .owDone = true

/-- R125 to R127: a whole RESET: the line's roles, no result before the end, and the outcome of the two samples. -/
def Obligations.ResetRunsItsSequence : Prop :=
  ∀ (data : Byte) (s : State) (tr : Nat → State), s.params.Legal → s.ow.busy = false →
    exec (.reset data) s = .next (tr 0) → Run tr (resetLen s.params) →
    let low := s.params.tRstl * s.params.clkPerUs
    let rec_ := s.params.tMsp * s.params.clkPerUs
    (∀ k, k < low → (tr k).owOe = true ∧ (tr k).owO = false) ∧
    (∀ k, low ≤ k → k < resetLen s.params → (tr k).owOe = false) ∧
    (∀ k, k < resetLen s.params → (tr k).ow.result = .none) ∧
    (tr (resetLen s.params)).ow.result =
      resetOutcome (tr (low + rec_ - 1)).sample.ow (tr (resetLen s.params - 1)).sample.ow

/-- R134, R136, R107: a WRITE_BYTE drives its bits least significant first, each in a slot of its own low time. -/
def Obligations.WriteByteDrivesItsBitsLsbFirst : Prop :=
  ∀ (data : Byte) (s : State) (tr : Nat → State), s.params.Legal → s.ow.busy = false →
    exec (.writeByte data) s = .next (tr 0) → Run tr (writeSlotStart s.params data 8) →
    ∀ i, i < 8 → ∀ x, x < writeSlotLen s.params (data.getLsbD i) →
      (tr (writeSlotStart s.params data i + x)).ow.role =
        if x < writeLowLen s.params (data.getLsbD i) then .driveLow else .released

/-- R135, R133, R107: a READ_BYTE makes the sample of slot `i` bit `i` of `ow_rdata`, which changes only at the finish. -/
def Obligations.ReadByteAssemblesItsSamplesLsbFirst : Prop :=
  ∀ (data : Byte) (s : State) (tr : Nat → State), s.params.Legal → s.ow.busy = false →
    exec (.readByte data) s = .next (tr 0) → Run tr (8 * readSlotLen s.params) →
    (∀ k, k < 8 * readSlotLen s.params → (tr k).ow.rdata = s.ow.rdata) ∧
    ∀ i, i < 8 → (tr (8 * readSlotLen s.params)).ow.rdata.getLsbD i =
      (tr (i * readSlotLen s.params + (s.params.tRl * s.params.clkPerUs + s.params.tRs * s.params.clkPerUs - 1))).sample.ow

/-- R132: a READ_BIT publishes its one sample, zero-extended. -/
def Obligations.ReadBitPublishesItsSample : Prop :=
  ∀ (data : Byte) (s : State) (tr : Nat → State), s.params.Legal → s.ow.busy = false →
    exec (.readBit data) s = .next (tr 0) → Run tr (readSlotLen s.params) →
    (tr (readSlotLen s.params)).ow.rdata =
      if (tr (s.params.tRl * s.params.clkPerUs + s.params.tRs * s.params.clkPerUs - 1)).sample.ow then 0x01 else 0x00

/-- R142: whatever access the host makes while an operation runs, the operation goes on as in a cycle with no access. -/
def Obligations.HostCannotDisturbARunningOperation : Prop :=
  ∀ (i : Instr) (s : State), s.ow.busy = true → ∃ t, exec i s = .next t ∧ t.ow = s.cycleNext.ow

/-- R17, R81: the other units' next state does not depend on the access, and one-wire state only on an OW_CMD
write. The synchronizer chain among them is the model's (log 1). -/
def Obligations.UnitsDoNotDependOnTheAccess : Prop :=
  ∀ (i j : Instr) (s : State), ∃ t u, exec i s = .next t ∧ exec j s = .next u ∧
    t.tick = u.tick ∧ t.btn = u.btn ∧ t.tx = u.tx ∧ t.rx = u.rx ∧ t.peer = u.peer ∧ t.sync = u.sync ∧
    (writesOwCmd i = false → writesOwCmd j = false → t.ow = u.ow) ∧
    ((∀ v, i ≠ .wrCtrl v) → t.ctrl = s.ctrl)

/-! ## Flags and interrupt lines -/

/-- R207, R209: a raised flag is set, set wins over clear, a flag stays until the host writes 1 to it, and nothing else sets
one: OW_CMD_ERR only by a rejected command (R118, R205). -/
def Obligations.FlagsAreStickyAndSetWins : Prop :=
  (∀ (p : Params) (e : Event), (State.resetOf p).flag e = false) ∧
  ∀ (i : Instr) (s : State), ∃ t, exec i s = .next t ∧ ∀ e : Event,
    (unitRaises s e = true → t.flag e = true) ∧
    (writesOwCmd i = true → s.ow.busy = true ∨ isCommand i = false → t.flag .owCmdErr = true) ∧
    (s.flag e = true → (∀ v, i = .wrIfg v → v.getLsbD (eventBit e) = false) → t.flag e = true) ∧
    (∀ v, i = .wrIfg v → v.getLsbD (eventBit e) = true → unitRaises s e = false → t.flag e = false) ∧
    (t.flag e = true → s.flag e = true ∨ unitRaises s e = true ∨ (e = .owCmdErr ∧ writesOwCmd i = true ∧ (s.ow.busy = true ∨ isCommand i = false)))

/-- R210, R211: the lines are the flags under their enables, so a line falls and rises with either. -/
def Obligations.InterruptLinesFollowFlagsAndEnables : Prop :=
  ∀ s : State,
    (s.irq .tick = (s.flag .tick && s.ctrl.getLsbD 8) ∧ s.irq .ow = (s.flag .owDone && s.ctrl.getLsbD 9) ∧
      s.irq .rx = (s.flag .rx && s.ctrl.getLsbD 10) ∧ s.irq .btn = (s.flag .btn && s.ctrl.getLsbD 11)) ∧
    (∀ v, ∃ t, exec (.wrCtrl v) s = .next t ∧
      t.irq .tick = ((s.flag .tick || beat s) && v.getLsbD 8) ∧
      t.irq .ow = ((s.flag .owDone || owFinishes s.ow) && v.getLsbD 9) ∧
      t.irq .rx = ((s.flag .rx || rxPublishes s) && v.getLsbD 10) ∧
      t.irq .btn = ((s.flag .btn || anyHonoured s) && v.getLsbD 11)) ∧
    (∀ v, ∃ t, exec (.wrIfg v) s = .next t ∧
      (v.getLsbD 0 = true → beat s = false → t.irq .tick = false) ∧
      (v.getLsbD 1 = true → owFinishes s.ow = false → t.irq .ow = false) ∧
      (v.getLsbD 2 = true → rxPublishes s = false → t.irq .rx = false) ∧
      (v.getLsbD 3 = true → anyHonoured s = false → t.irq .btn = false))

/-! ## Tick, buttons, transmitter -/

/-- R146: the tick divider, and what a beat does to `beat_cnt` and `TICK_IF` (R150 (e), (f)), which no other cycle
raises (R205). -/
def Obligations.TickDividerMakesBeats : Prop :=
  ∀ (i : Instr) (s : State), ∃ t, exec i s = .next t ∧
    (s.ctrl.getLsbD 0 = true → s.tick.div = s.params.slotCycles - 1 →
      t.tick.div = 0 ∧ t.tick.beatCnt = s.tick.beatCnt + 1 ∧ t.flag .tick = true) ∧
    (s.ctrl.getLsbD 0 = true → s.tick.div ≠ s.params.slotCycles - 1 →
      t.tick.div = s.tick.div + 1 ∧ t.tick.beatCnt = s.tick.beatCnt ∧ (t.flag .tick = true → s.flag .tick = true))

/-- R147, R175: with the tick disabled there is no beat: the divider and the transmitter are held, every counter keeps its
value. -/
def Obligations.DisabledTickFreezes : Prop :=
  ∀ (i : Instr) (s : State), s.ctrl.getLsbD 0 = false → beat s = false ∧ ∃ t, exec i s = .next t ∧
    t.tick = { div := 0, beatCnt := s.tick.beatCnt } ∧ (t.flag .tick = true → s.flag .tick = true) ∧
    t.tx.slot = s.params.framePeriod - 1 ∧ t.tx.transmit = false ∧ t.tx.frameActive = false ∧ t.tx.snap = s.tx.snap ∧
    (∀ k, honoured s k = false → quadGet t.btn.db k = quadGet s.btn.db k) ∧
    (anyHonoured s = false → t.btn.hold = s.btn.hold ∧ t.btn.localVal = s.btn.localVal) ∧
    (rxPublishes s = false → t.peer = s.peer)

/-- R148: after the write that enables the tick, the beats are the cycles `SLOT_CYCLES` apart. -/
def Obligations.BeatsComeEverySlotCycles : Prop :=
  ∀ (s : State) (v : Word) (tr : Nat → State) (n : Nat), s.params.Legal → s.tickEn = false → v.getLsbD 0 = true →
    exec (.wrCtrl v) s = .next (tr 0) → Run tr n → (∀ k, k < n → (tr k).tickEn = true) →
    (tr 0).tick.div = 0 ∧ ∀ k, k < n → (beat (tr k) = true ↔ s.params.slotCycles ∣ k + 1)

/-- R152, R158, R160 to R163: the button bank in one cycle. -/
def Obligations.ButtonBankHonoursPresses : Prop :=
  ∀ (i : Instr) (s : State),
    let beatNow : Prop := s.ctrl.getLsbD 0 = true ∧ s.tick.div = s.params.slotCycles - 1
    let pressed (k : Fin 4) : Prop :=
      if s.params.btnActiveLow = true then s.btn.prev.getLsbD k = true ∧ s.sample.btn.getLsbD k = false
      else s.btn.prev.getLsbD k = false ∧ s.sample.btn.getLsbD k = true
    let decayed (k : Fin 4) : Nat → Prop := fun d =>
      (beatNow → d = (quadGet s.btn.db k).toNat - 1) ∧ (¬ beatNow → d = (quadGet s.btn.db k).toNat)
    let inH (k : Fin 4) : Prop := s.ctrl.getLsbD 3 = true ∧ pressed k ∧ decayed k 0
    ∃ t, exec i s = .next t ∧ t.btn.prev = s.sample.btn ∧
      (∀ k, (inH k → quadGet t.btn.db k = BitVec.ofNat 16 s.params.debounceWindow) ∧
        (¬ inH k → decayed k (quadGet t.btn.db k).toNat)) ∧
      (∀ k, inH k → (∀ j, j < k → ¬ inH j) → t.btn.localVal = BitVec.ofNat 4 (k + 1)) ∧
      ((∃ k, inH k) → t.btn.hold = BitVec.ofNat 16 s.params.holdWindow ∧ t.flag .btn = true) ∧
      ((∀ k, ¬ inH k) → (t.flag .btn = true → s.flag .btn = true) ∧
        (beatNow → t.btn.hold.toNat = s.btn.hold.toNat - 1 ∧
          t.btn.localVal = if s.btn.hold.toNat - 1 = 0 then 0 else s.btn.localVal) ∧
        (¬ beatNow → t.btn.hold = s.btn.hold ∧ t.btn.localVal = s.btn.localVal))

/-- R169 to R173: the frame serializer in a beat, and between beats. -/
def Obligations.TransmitterAdvancesInBeats : Prop :=
  ∀ (i : Instr) (s : State), ∃ t, exec i s = .next t ∧
    (s.ctrl.getLsbD 0 = true → s.tick.div = s.params.slotCycles - 1 →
      let q := (s.tx.slot + 1) % s.params.framePeriod
      t.tx.slot = q ∧
      (q = 0 → t.tx.snap = s.btn.localVal ∧
        (t.tx.frameActive = true ↔ s.ctrl.getLsbD 1 = true ∧ s.btn.localVal ≠ 0)) ∧
      (q ≠ 0 → t.tx.snap = s.tx.snap ∧ t.tx.frameActive = s.tx.frameActive) ∧
      (t.tx.transmit = true ↔ t.tx.frameActive = true ∧
        (q = 0 ∨ q = 5 ∨ (1 ≤ q ∧ q ≤ 4 ∧ t.tx.snap.getLsbD (4 - q) = false)))) ∧
    (s.ctrl.getLsbD 0 = true → s.tick.div ≠ s.params.slotCycles - 1 →
      t.tx.slot = s.tx.slot ∧ t.tx.frameActive = s.tx.frameActive ∧ t.tx.transmit = s.tx.transmit) ∧
    (¬(s.ctrl.getLsbD 0 = true ∧ s.tick.div = s.params.slotCycles - 1) → t.tx.snap = s.tx.snap)

/-- R176, R177: the carrier generator and the emitter. -/
def Obligations.CarrierTogglesWhileTransmitting : Prop :=
  ∀ (i : Instr) (s : State), s.irTxO = (s.tx.transmit && s.tx.carPhase) ∧ ∃ t, exec i s = .next t ∧
    (s.tx.transmit = false → t.tx.carCnt = 0 ∧ t.tx.carPhase = true) ∧
    (s.tx.transmit = true → s.tx.carCnt = s.params.carrierHalfCycles - 1 →
      t.tx.carCnt = 0 ∧ t.tx.carPhase = !s.tx.carPhase) ∧
    (s.tx.transmit = true → s.tx.carCnt ≠ s.params.carrierHalfCycles - 1 →
      t.tx.carCnt = s.tx.carCnt + 1 ∧ t.tx.carPhase = s.tx.carPhase)

/-- R180, R172: a whole frame interval: slot `k` carries carrier exactly where the start, stop and inverted data bits of the
value latched at slot 0 say so. -/
def Obligations.TransmitterSendsTheLatchedFrame : Prop :=
  ∀ (tr : Nat → State), (tr 0).params.Legal → (tr 0).txEn = true → beat (tr 0) = true →
    nextSlot (tr 0) = 0 → (tr 0).btn.localVal ≠ 0 →
    Run tr ((tr 0).params.framePeriod * (tr 0).params.slotCycles) →
    (∀ k, k < (tr 0).params.framePeriod * (tr 0).params.slotCycles → (tr k).tickEn = true) →
    ∀ k x, k < (tr 0).params.framePeriod → x < (tr 0).params.slotCycles →
      (tr (1 + k * (tr 0).params.slotCycles + x)).tx.slot = k ∧
      (tr (1 + k * (tr 0).params.slotCycles + x)).tx.transmit = slotCarrier k (tr 0).btn.localVal

/-! ## Receiver and peer -/

/-- R182 to R184: the edge detector and the start of a reception; in IDLE no receiver flag is raised (R205) and the peer state
changes by a beat only (R198). -/
def Obligations.ReceiverStartsOnAFallingEdge : Prop :=
  ∀ (i : Instr) (s : State), ∃ t, exec i s = .next t ∧ t.rx.prev = s.sample.ir ∧
    (s.ctrl.getLsbD 2 = true → s.rx.state = .idle → s.rx.prev = true → s.sample.ir = false →
      t.rx = { prev := false, state := .start, cnt := s.params.rxHalfCycles, acc := 0 }) ∧
    (s.ctrl.getLsbD 2 = true → s.rx.state = .idle → ¬(s.rx.prev = true ∧ s.sample.ir = false) →
      t.rx = { s.rx with prev := s.sample.ir }) ∧
    (s.rx.state = .idle → (t.flag .rx = true → s.flag .rx = true) ∧ (t.flag .rxErr = true → s.flag .rxErr = true) ∧
      t.peer = if beat s then peerBeat s else s.peer)

/-- R197: a disabled receiver is held in IDLE, and a frame in progress is dropped without RX_ERR. -/
def Obligations.DisabledReceiverIsIdle : Prop :=
  ∀ (i : Instr) (s : State), s.ctrl.getLsbD 2 = false → ∃ t, exec i s = .next t ∧
    t.rx = { prev := s.sample.ir, state := .idle, cnt := 0, acc := s.rx.acc } ∧
    (t.flag .rxErr = true → s.flag .rxErr = true) ∧ (t.flag .rx = true → s.flag .rx = true) ∧
    t.peer = if beat s then peerBeat s else s.peer

/-- R185 to R191, R194, R195: the sampling timer and the action of every firing. Only a STOP firing publishes and raises RX_IF,
and only a START or STOP firing aborts and raises RX_ERR: every other cycle raises neither and leaves the peer state to the beat
(R189, R198, R205). -/
def Obligations.ReceiverFiringsFollowTheFrame : Prop :=
  ∀ (i : Instr) (s : State), s.ctrl.getLsbD 2 = true → s.rx.state ≠ .idle →
    let shifted : Nibble := (s.rx.acc <<< 1) ||| (if s.sample.ir then 1 else 0)
    let published : Prop := s.rx.cnt ≤ 1 ∧ s.rx.state = .stop ∧ s.sample.ir = true
    let aborted : Prop := s.rx.cnt ≤ 1 ∧
      ((s.rx.state = .start ∧ s.sample.ir = true) ∨ (s.rx.state = .stop ∧ s.sample.ir = false))
    ∃ t, exec i s = .next t ∧
    (1 < s.rx.cnt → t.rx = { s.rx with prev := s.sample.ir, cnt := s.rx.cnt - 1 }) ∧
    (s.rx.cnt ≤ 1 →
      (s.rx.state = .start → s.sample.ir = false →
        t.rx = { prev := false, state := .b0, cnt := s.params.rxSlotCycles, acc := s.rx.acc }) ∧
      (s.rx.state = .b0 → t.rx = { prev := s.sample.ir, state := .b1, cnt := s.params.rxSlotCycles, acc := shifted }) ∧
      (s.rx.state = .b1 → t.rx = { prev := s.sample.ir, state := .b2, cnt := s.params.rxSlotCycles, acc := shifted }) ∧
      (s.rx.state = .b2 → t.rx = { prev := s.sample.ir, state := .b3, cnt := s.params.rxSlotCycles, acc := shifted }) ∧
      (s.rx.state = .b3 → t.rx = { prev := s.sample.ir, state := .mark, cnt := s.params.rxSlotCycles, acc := shifted }) ∧
      (s.rx.state = .mark →
        t.rx = { prev := s.sample.ir, state := .stop, cnt := s.params.rxSlotCycles, acc := s.rx.acc })) ∧
    (published ∨ aborted → t.rx = { prev := s.sample.ir, state := .idle, cnt := 0, acc := s.rx.acc }) ∧
    (published → t.peer = { val := s.rx.acc, valid := true, age := 0 } ∧ t.flag .rx = true) ∧
    (¬ published → t.peer = (if beat s then peerBeat s else s.peer) ∧ (t.flag .rx = true → s.flag .rx = true)) ∧
    (aborted → t.flag .rxErr = true) ∧
    (¬ aborted → t.flag .rxErr = true → s.flag .rxErr = true)

/-- R187, R195: a reception whose START sample is active and whose STOP sample is idle publishes the four data samples, most
significant first, at its last firing. -/
def Obligations.ReceiverPublishesTheSampledFrame : Prop :=
  ∀ (tr : Nat → State),
    let half := (tr 0).params.rxHalfCycles
    let slot := (tr 0).params.rxSlotCycles
    let r (j : Nat) : Bool := (tr (half + j * slot)).sample.ir
    (tr 0).params.Legal → (tr 0).rx.state = .idle → (tr 0).rx.prev = true → (tr 0).sample.ir = false →
    Run tr (half + 6 * slot + 1) → (∀ k, k < half + 6 * slot + 1 → (tr k).rxEn = true) → r 0 = false → r 6 = true →
    (tr (half + 6 * slot + 1)).peer =
      { val := BitVec.ofBool (r 1) ++ BitVec.ofBool (r 2) ++ BitVec.ofBool (r 3) ++ BitVec.ofBool (r 4),
        valid := true, age := 0 } ∧
    (tr (half + 6 * slot + 1)).rx.state = .idle ∧ (tr (half + 6 * slot + 1)).flag .rx = true

/-- R199, R196, R198: the age and the stale forcing of a beat, which a publish overrides; nothing else writes the peer state. -/
def Obligations.PeerAgesInBeatsAndGoesStale : Prop :=
  ∀ (i : Instr) (s : State), ∃ t, exec i s = .next t ∧
    (rxPublishes s = true → t.peer = { val := s.rx.acc, valid := true, age := 0 }) ∧
    (rxPublishes s = false → s.ctrl.getLsbD 0 = true → s.tick.div = s.params.slotCycles - 1 →
      t.peer.age = min (s.peer.age + 1) (2 * s.params.framePeriod + 1) ∧
      (2 * s.params.framePeriod < t.peer.age → t.peer.val = 0 ∧ t.peer.valid = false) ∧
      (t.peer.age ≤ 2 * s.params.framePeriod → t.peer.val = s.peer.val ∧ t.peer.valid = s.peer.valid)) ∧
    (rxPublishes s = false → ¬(s.ctrl.getLsbD 0 = true ∧ s.tick.div = s.params.slotCycles - 1) → t.peer = s.peer)

/-- R201: a peer forced to "no state" stays so until the next publish. -/
def Obligations.StalePeerStaysUntilAPublish : Prop :=
  ∀ (tr : Nat → State) (n : Nat), Run tr n → (tr 0).params.Legal →
    (tr 0).peer = { val := 0, valid := false, age := ageMax (tr 0).params } →
    (∀ k, k < n → rxPublishes (tr k) = false) →
    ∀ k, k ≤ n → (tr k).peer = { val := 0, valid := false, age := ageMax (tr 0).params }
end

