-- ==== Sys2Proof/Laws/State.lean ====
section
/-! SUPPORT. The fields of the state after each of the model's updates: one lemma per field per update, true by rfl. -/

namespace Sys2Proof.Machine

open Sys2Proof

/-! ## A cycle with no access -/

@[simp] theorem cycleNext_params (s : State) : s.cycleNext.params = s.params := rfl

@[simp] theorem cycleNext_ctrl (s : State) : s.cycleNext.ctrl = s.ctrl := rfl

@[simp] theorem cycleNext_ifg (s : State) : s.cycleNext.ifg = raiseFlags s.ifg (raisedByUnits s) := rfl

@[simp] theorem cycleNext_ow (s : State) : s.cycleNext.ow = owNext s.params s.sample.ow s.ow := rfl

@[simp] theorem cycleNext_tick (s : State) : s.cycleNext.tick = tickNext s := rfl

@[simp] theorem cycleNext_btn (s : State) : s.cycleNext.btn = buttonsNext s := rfl

@[simp] theorem cycleNext_tx (s : State) : s.cycleNext.tx = txNext s := rfl

@[simp] theorem cycleNext_rx (s : State) : s.cycleNext.rx = rxNext s := rfl

@[simp] theorem cycleNext_peer (s : State) : s.cycleNext.peer = peerNext s := rfl

@[simp] theorem cycleNext_sync (s : State) : s.cycleNext.sync = syncNext s := rfl

@[simp] theorem cycleNext_cycle (s : State) : s.cycleNext.cycle = s.cycle + 1 := rfl

@[simp] theorem cycleNext_pinQ (s : State) : s.cycleNext.pinQ = s.pinQ.tail := rfl

@[simp] theorem cycleNext_rstQ (s : State) : s.cycleNext.rstQ = s.rstQ := rfl

@[simp] theorem cycleNext_hostQ (s : State) : s.cycleNext.hostQ = s.hostQ := rfl

@[simp] theorem cycleNext_busRdata (s : State) : s.cycleNext.busRdata = none := rfl

/-! ## A read -/

@[simp] theorem readCycle_params (s : State) (w : Word) : (readCycle s w).params = s.cycleNext.params := rfl

@[simp] theorem readCycle_ctrl (s : State) (w : Word) : (readCycle s w).ctrl = s.cycleNext.ctrl := rfl

@[simp] theorem readCycle_ifg (s : State) (w : Word) : (readCycle s w).ifg = s.cycleNext.ifg := rfl

@[simp] theorem readCycle_ow (s : State) (w : Word) : (readCycle s w).ow = s.cycleNext.ow := rfl

@[simp] theorem readCycle_tick (s : State) (w : Word) : (readCycle s w).tick = s.cycleNext.tick := rfl

@[simp] theorem readCycle_btn (s : State) (w : Word) : (readCycle s w).btn = s.cycleNext.btn := rfl

@[simp] theorem readCycle_tx (s : State) (w : Word) : (readCycle s w).tx = s.cycleNext.tx := rfl

@[simp] theorem readCycle_rx (s : State) (w : Word) : (readCycle s w).rx = s.cycleNext.rx := rfl

@[simp] theorem readCycle_peer (s : State) (w : Word) : (readCycle s w).peer = s.cycleNext.peer := rfl

@[simp] theorem readCycle_sync (s : State) (w : Word) : (readCycle s w).sync = s.cycleNext.sync := rfl

@[simp] theorem readCycle_cycle (s : State) (w : Word) : (readCycle s w).cycle = s.cycleNext.cycle := rfl

@[simp] theorem readCycle_pinQ (s : State) (w : Word) : (readCycle s w).pinQ = s.cycleNext.pinQ := rfl

@[simp] theorem readCycle_rstQ (s : State) (w : Word) : (readCycle s w).rstQ = s.cycleNext.rstQ := rfl

@[simp] theorem readCycle_hostQ (s : State) (w : Word) : (readCycle s w).hostQ = s.cycleNext.hostQ := rfl

@[simp] theorem readCycle_busRdata (s : State) (w : Word) : (readCycle s w).busRdata = some w := rfl

/-! ## A write of CTRL -/

@[simp] theorem ctrlCycle_params (s : State) (v : Word) : (ctrlCycle s v).params = s.cycleNext.params := rfl

@[simp] theorem ctrlCycle_ctrl (s : State) (v : Word) : (ctrlCycle s v).ctrl = v &&& 0x0F0F := rfl

@[simp] theorem ctrlCycle_ifg (s : State) (v : Word) : (ctrlCycle s v).ifg = s.cycleNext.ifg := rfl

@[simp] theorem ctrlCycle_ow (s : State) (v : Word) : (ctrlCycle s v).ow = s.cycleNext.ow := rfl

@[simp] theorem ctrlCycle_tick (s : State) (v : Word) : (ctrlCycle s v).tick = s.cycleNext.tick := rfl

@[simp] theorem ctrlCycle_btn (s : State) (v : Word) : (ctrlCycle s v).btn = s.cycleNext.btn := rfl

@[simp] theorem ctrlCycle_tx (s : State) (v : Word) : (ctrlCycle s v).tx = s.cycleNext.tx := rfl

@[simp] theorem ctrlCycle_rx (s : State) (v : Word) : (ctrlCycle s v).rx = s.cycleNext.rx := rfl

@[simp] theorem ctrlCycle_peer (s : State) (v : Word) : (ctrlCycle s v).peer = s.cycleNext.peer := rfl

@[simp] theorem ctrlCycle_sync (s : State) (v : Word) : (ctrlCycle s v).sync = s.cycleNext.sync := rfl

@[simp] theorem ctrlCycle_cycle (s : State) (v : Word) : (ctrlCycle s v).cycle = s.cycleNext.cycle := rfl

@[simp] theorem ctrlCycle_pinQ (s : State) (v : Word) : (ctrlCycle s v).pinQ = s.cycleNext.pinQ := rfl

@[simp] theorem ctrlCycle_rstQ (s : State) (v : Word) : (ctrlCycle s v).rstQ = s.cycleNext.rstQ := rfl

@[simp] theorem ctrlCycle_hostQ (s : State) (v : Word) : (ctrlCycle s v).hostQ = s.cycleNext.hostQ := rfl

@[simp] theorem ctrlCycle_busRdata (s : State) (v : Word) : (ctrlCycle s v).busRdata = s.cycleNext.busRdata := rfl

/-! ## A write of IFG -/

@[simp] theorem ifgCycle_params (s : State) (v : Word) : (ifgCycle s v).params = s.cycleNext.params := rfl

@[simp] theorem ifgCycle_ctrl (s : State) (v : Word) : (ifgCycle s v).ctrl = s.cycleNext.ctrl := rfl

@[simp] theorem ifgCycle_ifg (s : State) (v : Word) : (ifgCycle s v).ifg = clearFlags s.ifg v (raisedByUnits s) := rfl

@[simp] theorem ifgCycle_ow (s : State) (v : Word) : (ifgCycle s v).ow = s.cycleNext.ow := rfl

@[simp] theorem ifgCycle_tick (s : State) (v : Word) : (ifgCycle s v).tick = s.cycleNext.tick := rfl

@[simp] theorem ifgCycle_btn (s : State) (v : Word) : (ifgCycle s v).btn = s.cycleNext.btn := rfl

@[simp] theorem ifgCycle_tx (s : State) (v : Word) : (ifgCycle s v).tx = s.cycleNext.tx := rfl

@[simp] theorem ifgCycle_rx (s : State) (v : Word) : (ifgCycle s v).rx = s.cycleNext.rx := rfl

@[simp] theorem ifgCycle_peer (s : State) (v : Word) : (ifgCycle s v).peer = s.cycleNext.peer := rfl

@[simp] theorem ifgCycle_sync (s : State) (v : Word) : (ifgCycle s v).sync = s.cycleNext.sync := rfl

@[simp] theorem ifgCycle_cycle (s : State) (v : Word) : (ifgCycle s v).cycle = s.cycleNext.cycle := rfl

@[simp] theorem ifgCycle_pinQ (s : State) (v : Word) : (ifgCycle s v).pinQ = s.cycleNext.pinQ := rfl

@[simp] theorem ifgCycle_rstQ (s : State) (v : Word) : (ifgCycle s v).rstQ = s.cycleNext.rstQ := rfl

@[simp] theorem ifgCycle_hostQ (s : State) (v : Word) : (ifgCycle s v).hostQ = s.cycleNext.hostQ := rfl

@[simp] theorem ifgCycle_busRdata (s : State) (v : Word) : (ifgCycle s v).busRdata = s.cycleNext.busRdata := rfl

/-! ## A rejected command -/

@[simp] theorem rejectCycle_params (s : State) : (rejectCycle s).params = s.cycleNext.params := rfl

@[simp] theorem rejectCycle_ctrl (s : State) : (rejectCycle s).ctrl = s.cycleNext.ctrl := rfl

@[simp] theorem rejectCycle_ifg (s : State) : (rejectCycle s).ifg = raiseFlags s.ifg (raisedByUnits s ||| eventMask .owCmdErr) := rfl

@[simp] theorem rejectCycle_ow (s : State) : (rejectCycle s).ow = s.cycleNext.ow := rfl

@[simp] theorem rejectCycle_tick (s : State) : (rejectCycle s).tick = s.cycleNext.tick := rfl

@[simp] theorem rejectCycle_btn (s : State) : (rejectCycle s).btn = s.cycleNext.btn := rfl

@[simp] theorem rejectCycle_tx (s : State) : (rejectCycle s).tx = s.cycleNext.tx := rfl

@[simp] theorem rejectCycle_rx (s : State) : (rejectCycle s).rx = s.cycleNext.rx := rfl

@[simp] theorem rejectCycle_peer (s : State) : (rejectCycle s).peer = s.cycleNext.peer := rfl

@[simp] theorem rejectCycle_sync (s : State) : (rejectCycle s).sync = s.cycleNext.sync := rfl

@[simp] theorem rejectCycle_cycle (s : State) : (rejectCycle s).cycle = s.cycleNext.cycle := rfl

@[simp] theorem rejectCycle_pinQ (s : State) : (rejectCycle s).pinQ = s.cycleNext.pinQ := rfl

@[simp] theorem rejectCycle_rstQ (s : State) : (rejectCycle s).rstQ = s.cycleNext.rstQ := rfl

@[simp] theorem rejectCycle_hostQ (s : State) : (rejectCycle s).hostQ = s.cycleNext.hostQ := rfl

@[simp] theorem rejectCycle_busRdata (s : State) : (rejectCycle s).busRdata = s.cycleNext.busRdata := rfl

/-! ## An accepted command -/

@[simp] theorem acceptCycle_params (s : State) (ow : OneWire) : (acceptCycle s ow).params = s.cycleNext.params := rfl

@[simp] theorem acceptCycle_ctrl (s : State) (ow : OneWire) : (acceptCycle s ow).ctrl = s.cycleNext.ctrl := rfl

@[simp] theorem acceptCycle_ifg (s : State) (ow : OneWire) : (acceptCycle s ow).ifg = s.cycleNext.ifg := rfl

@[simp] theorem acceptCycle_ow (s : State) (ow : OneWire) : (acceptCycle s ow).ow = ow := rfl

@[simp] theorem acceptCycle_tick (s : State) (ow : OneWire) : (acceptCycle s ow).tick = s.cycleNext.tick := rfl

@[simp] theorem acceptCycle_btn (s : State) (ow : OneWire) : (acceptCycle s ow).btn = s.cycleNext.btn := rfl

@[simp] theorem acceptCycle_tx (s : State) (ow : OneWire) : (acceptCycle s ow).tx = s.cycleNext.tx := rfl

@[simp] theorem acceptCycle_rx (s : State) (ow : OneWire) : (acceptCycle s ow).rx = s.cycleNext.rx := rfl

@[simp] theorem acceptCycle_peer (s : State) (ow : OneWire) : (acceptCycle s ow).peer = s.cycleNext.peer := rfl

@[simp] theorem acceptCycle_sync (s : State) (ow : OneWire) : (acceptCycle s ow).sync = s.cycleNext.sync := rfl

@[simp] theorem acceptCycle_cycle (s : State) (ow : OneWire) : (acceptCycle s ow).cycle = s.cycleNext.cycle := rfl

@[simp] theorem acceptCycle_pinQ (s : State) (ow : OneWire) : (acceptCycle s ow).pinQ = s.cycleNext.pinQ := rfl

@[simp] theorem acceptCycle_rstQ (s : State) (ow : OneWire) : (acceptCycle s ow).rstQ = s.cycleNext.rstQ := rfl

@[simp] theorem acceptCycle_hostQ (s : State) (ow : OneWire) : (acceptCycle s ow).hostQ = s.cycleNext.hostQ := rfl

@[simp] theorem acceptCycle_busRdata (s : State) (ow : OneWire) : (acceptCycle s ow).busRdata = s.cycleNext.busRdata := rfl

/-! ## A cycle with `rst` -/

@[simp] theorem resetCycle_params (s : State) (r : Option Word) : (resetCycle s r).params = s.params := rfl

@[simp] theorem resetCycle_ctrl (s : State) (r : Option Word) : (resetCycle s r).ctrl = (State.resetOf s.params).ctrl := rfl

@[simp] theorem resetCycle_ifg (s : State) (r : Option Word) : (resetCycle s r).ifg = (State.resetOf s.params).ifg := rfl

@[simp] theorem resetCycle_ow (s : State) (r : Option Word) : (resetCycle s r).ow = (State.resetOf s.params).ow := rfl

@[simp] theorem resetCycle_tick (s : State) (r : Option Word) : (resetCycle s r).tick = (State.resetOf s.params).tick := rfl

@[simp] theorem resetCycle_btn (s : State) (r : Option Word) : (resetCycle s r).btn = (State.resetOf s.params).btn := rfl

@[simp] theorem resetCycle_tx (s : State) (r : Option Word) : (resetCycle s r).tx = (State.resetOf s.params).tx := rfl

@[simp] theorem resetCycle_rx (s : State) (r : Option Word) : (resetCycle s r).rx = (State.resetOf s.params).rx := rfl

@[simp] theorem resetCycle_peer (s : State) (r : Option Word) : (resetCycle s r).peer = (State.resetOf s.params).peer := rfl

@[simp] theorem resetCycle_sync (s : State) (r : Option Word) : (resetCycle s r).sync = (State.resetOf s.params).sync := rfl

@[simp] theorem resetCycle_cycle (s : State) (r : Option Word) : (resetCycle s r).cycle = s.cycle + 1 := rfl

@[simp] theorem resetCycle_pinQ (s : State) (r : Option Word) : (resetCycle s r).pinQ = s.pinQ.tail := rfl

@[simp] theorem resetCycle_rstQ (s : State) (r : Option Word) : (resetCycle s r).rstQ = s.rstQ := rfl

@[simp] theorem resetCycle_hostQ (s : State) (r : Option Word) : (resetCycle s r).hostQ = s.hostQ := rfl

@[simp] theorem resetCycle_busRdata (s : State) (r : Option Word) : (resetCycle s r).busRdata = r := rfl

/-! ## The environment's scripts -/

@[simp] theorem taken_params (s : State) : s.taken.params = s.params := rfl

@[simp] theorem taken_ctrl (s : State) : s.taken.ctrl = s.ctrl := rfl

@[simp] theorem taken_ifg (s : State) : s.taken.ifg = s.ifg := rfl

@[simp] theorem taken_ow (s : State) : s.taken.ow = s.ow := rfl

@[simp] theorem taken_tick (s : State) : s.taken.tick = s.tick := rfl

@[simp] theorem taken_btn (s : State) : s.taken.btn = s.btn := rfl

@[simp] theorem taken_tx (s : State) : s.taken.tx = s.tx := rfl

@[simp] theorem taken_rx (s : State) : s.taken.rx = s.rx := rfl

@[simp] theorem taken_peer (s : State) : s.taken.peer = s.peer := rfl

@[simp] theorem taken_sync (s : State) : s.taken.sync = s.sync := rfl

@[simp] theorem taken_cycle (s : State) : s.taken.cycle = s.cycle := rfl

@[simp] theorem taken_pinQ (s : State) : s.taken.pinQ = s.pinQ := rfl

@[simp] theorem taken_rstQ (s : State) : s.taken.rstQ = s.rstQ.tail := rfl

@[simp] theorem taken_hostQ (s : State) : s.taken.hostQ = s.hostQ.tail := rfl

@[simp] theorem taken_busRdata (s : State) : s.taken.busRdata = s.busRdata := rfl

@[simp] theorem taken_sample (s : State) : s.taken.sample = s.sample := rfl

@[simp] theorem taken_pins (s : State) : s.taken.pins = s.pins := rfl

@[simp] theorem taken_tickEn (s : State) : s.taken.tickEn = s.tickEn := rfl

@[simp] theorem taken_txEn (s : State) : s.taken.txEn = s.txEn := rfl

@[simp] theorem taken_rxEn (s : State) : s.taken.rxEn = s.rxEn := rfl

@[simp] theorem taken_btnEn (s : State) : s.taken.btnEn = s.btnEn := rfl

end Sys2Proof.Machine
end

