-- ==== Sys2Proof/Laws/Ops.lean ====
section
/-! SUPPORT. What each shared operation can do, said once: the phase engine, the acceptance of a command, the flags, the step
and every instruction's meaning. -/

namespace Sys2Proof.Machine

open Sys2Proof

/-! ## The one-wire engine -/

theorem owNext_idle (p : Params) (line : Bool) (ow : OneWire) (h : ow.busy = false) : owNext p line ow = ow := by
  simp [owNext, h]

theorem owNext_counting (p : Params) (line : Bool) (ow : OneWire) (h : ow.busy = true) (hc : 1 < ow.cnt) :
    owNext p line ow = { ow with cnt := ow.cnt - 1 } := by
  simp [owNext, h, hc]

theorem owNext_last (p : Params) (line : Bool) (ow : OneWire) (h : ow.busy = true) (hc : ow.cnt ≤ 1) :
    owNext p line ow = endAction p line ow := by
  simp [owNext, h, Nat.not_lt.mpr hc]

/-- The end action either enters a phase and keeps the operation running, or finishes it. -/
theorem endAction_cases (p : Params) (line : Bool) (ow : OneWire) (h : ow.phase ≠ .none) :
    (endsInFinish ow = false ∧ (endAction p line ow).busy = ow.busy ∧ (endAction p line ow).op = ow.op) ∨
    (endsInFinish ow = true ∧ (endAction p line ow).busy = false ∧ (endAction p line ow).phase = .none) := by
  cases hp : ow.phase <;> simp_all [endAction, endsInFinish, enterPhase, finishOp] <;> split <;> simp_all

/-- The engine writes nothing of the operation, its data and the idle role. -/
theorem owNext_frame (p : Params) (line : Bool) (ow : OneWire) :
    (owNext p line ow).op = ow.op ∧ (owNext p line ow).wdata = ow.wdata ∧ (owNext p line ow).idleHigh = ow.idleHigh := by
  unfold owNext
  split
  · split
    · simp
    · cases hp : ow.phase <;> simp [endAction, hp, enterPhase, finishOp] <;> split <;> simp
  · simp

/-! ## Commands -/

@[simp] theorem commandCycle_busy (s : State) (ow : OneWire) (h : s.ow.busy = true) : commandCycle s ow = rejectCycle s := by
  simp [commandCycle, h]

@[simp] theorem commandCycle_idle (s : State) (ow : OneWire) (h : s.ow.busy = false) :
    commandCycle s ow = acceptCycle s ow := by
  simp [commandCycle, h]

theorem opOfCode_opCode (op : OwOp) : opOfCode (opCode op) = op := by cases op <;> rfl

/-! ## Flags -/

theorem getLsbD_eventMask (e : Event) (k : Nat) : (eventMask e).getLsbD k = decide (k = eventBit e) := by
  by_cases hk : k < 16
  · revert e; interval_cases k <;> intro e <;> cases e <;> rfl
  · rw [BitVec.getLsbD_of_ge _ _ (by omega)]
    have he : eventBit e < 6 := by cases e <;> decide
    simp [show k ≠ eventBit e by omega]

theorem getLsbD_eventIf (e : Event) (b : Bool) (k : Nat) : (eventIf e b).getLsbD k = (b && decide (k = eventBit e)) := by
  cases b <;> simp [eventIf, getLsbD_eventMask]

/-- Bit `eventBit e` of `set_n` is what `unitRaises` says of the event. -/
theorem raisedByUnits_getLsbD (s : State) (e : Event) : (raisedByUnits s).getLsbD (eventBit e) = unitRaises s e := by
  simp only [raisedByUnits, BitVec.getLsbD_or, getLsbD_eventIf]
  cases e <;> simp [eventBit, unitRaises]

/-- No unit raises a bit above the six flags. -/
theorem raisedByUnits_high (s : State) (k : Nat) (h : 6 ≤ k) : (raisedByUnits s).getLsbD k = false := by
  have ne : ∀ e : Event, decide (k = eventBit e) = false := fun e => by
    have : eventBit e < 6 := by cases e <;> decide
    simpa using (by omega : k ≠ eventBit e)
  simp only [raisedByUnits, BitVec.getLsbD_or, getLsbD_eventIf, ne, Bool.and_false, Bool.or_self]

/-! ## The meanings -/

/-- What an instruction can do to the state: one of six cycles. -/
theorem exec_cases {i : Instr} {s t : State} (h : exec i s = .next t) :
    (∃ w, isReadAccess i = true ∧ busReadOf s i = some w ∧ t = readCycle s w) ∨
    (∃ v, i = .wrCtrl v ∧ t = ctrlCycle s v) ∨
    (∃ v, i = .wrIfg v ∧ t = ifgCycle s v) ∨
    (writesOwCmd i = false ∧ isReadAccess i = false ∧ (∀ v, i ≠ .wrCtrl v) ∧ (∀ v, i ≠ .wrIfg v) ∧ t = ignoredCycle s) ∨
    (writesOwCmd i = true ∧ (s.ow.busy = true ∨ isCommand i = false) ∧ t = rejectCycle s) ∨
    (∃ op data, isCommand i = true ∧ writesOwCmd i = true ∧ s.ow.busy = false ∧
      t = acceptCycle s (acceptOp s.params op data s.ow)) := by
  have cmd : ∀ op data, writesOwCmd i = true → isCommand i = true →
      t = commandCycle s (acceptOp s.params op data s.ow) →
      (writesOwCmd i = true ∧ (s.ow.busy = true ∨ isCommand i = false) ∧ t = rejectCycle s) ∨
      (∃ op data, isCommand i = true ∧ writesOwCmd i = true ∧ s.ow.busy = false ∧
        t = acceptCycle s (acceptOp s.params op data s.ow)) := by
    intro op data hw hc ht
    cases hb : s.ow.busy
    · exact .inr ⟨op, data, hc, hw, rfl, by simpa [hb] using ht⟩
    · exact .inl ⟨hw, .inl rfl, by simpa [hb] using ht⟩
  cases i <;> simp only [exec] at h
  case nop d => exact .inr (.inr (.inr (.inr (cmd .nop d rfl rfl (by cases h; rfl)))))
  case reset d => exact .inr (.inr (.inr (.inr (cmd .reset d rfl rfl (by cases h; rfl)))))
  case writeBit d => exact .inr (.inr (.inr (.inr (cmd .writeBit d rfl rfl (by cases h; rfl)))))
  case readBit d => exact .inr (.inr (.inr (.inr (cmd .readBit d rfl rfl (by cases h; rfl)))))
  case writeByte d => exact .inr (.inr (.inr (.inr (cmd .writeByte d rfl rfl (by cases h; rfl)))))
  case readByte d => exact .inr (.inr (.inr (.inr (cmd .readByte d rfl rfl (by cases h; rfl)))))
  case driveHigh d => exact .inr (.inr (.inr (.inr (cmd .driveHigh d rfl rfl (by cases h; rfl)))))
  case release d => exact .inr (.inr (.inr (.inr (cmd .release d rfl rfl (by cases h; rfl)))))
  case wrOwCmd v =>
    unfold execWrOwCmd at h
    split at h
    · rename_i hr
      exact .inr (.inr (.inr (.inr (cmd _ _ rfl (by simp [isCommand, hr]) (by cases h; rfl)))))
    · rename_i hr
      exact .inr (.inr (.inr (.inr (.inl ⟨rfl, .inr (by simpa [isCommand] using hr), by cases h; rfl⟩))))
  case wrCtrl v => exact .inr (.inl ⟨v, rfl, by cases h; rfl⟩)
  case wrIfg v => exact .inr (.inr (.inl ⟨v, rfl, by cases h; rfl⟩))
  all_goals first
    | exact .inl ⟨_, rfl, rfl, by cases h; rfl⟩
    | exact .inr (.inr (.inr (.inl ⟨rfl, rfl, nofun, nofun, by cases h; rfl⟩)))

/-- What every instruction makes of the units the host does not write: the cycle's own next state. -/
theorem exec_units {i : Instr} {s t : State} (h : exec i s = .next t) :
    t.params = s.params ∧ t.tick = tickNext s ∧ t.btn = buttonsNext s ∧ t.tx = txNext s ∧ t.rx = rxNext s ∧
    t.peer = peerNext s ∧ t.sync = syncNext s ∧ t.cycle = s.cycle + 1 ∧ t.pinQ = s.pinQ.tail ∧ t.rstQ = s.rstQ ∧
    t.hostQ = s.hostQ := by
  rcases exec_cases h with ⟨w, -, -, rfl⟩ | ⟨v, -, rfl⟩ | ⟨v, -, rfl⟩ | ⟨-, -, -, -, rfl⟩ | ⟨-, -, rfl⟩ |
    ⟨op, d, -, -, -, rfl⟩ <;> simp [ignoredCycle]

/-- While the master is busy, and for every access but a write of OW_CMD, the cycle's one-wire state is the engine's. -/
theorem exec_ow {i : Instr} {s t : State} (h : exec i s = .next t) (hn : s.ow.busy = true ∨ writesOwCmd i = false) :
    t.ow = owNext s.params s.sample.ow s.ow := by
  rcases exec_cases h with ⟨w, -, -, rfl⟩ | ⟨v, -, rfl⟩ | ⟨v, -, rfl⟩ | ⟨-, -, -, -, rfl⟩ | ⟨-, -, rfl⟩ |
    ⟨op, d, hc, hw, hb, rfl⟩ <;> simp_all [ignoredCycle]

/-- Every flag after an instruction other than the write of IFG. -/
theorem exec_flag {i : Instr} {s t : State} (h : exec i s = .next t) (hn : ∀ v, i ≠ .wrIfg v) (e : Event) :
    t.flag e = (s.flag e || unitRaises s e ||
        (decide (e = .owCmdErr) && writesOwCmd i && (s.ow.busy || !isCommand i))) := by
  have hr := raisedByUnits_getLsbD s e
  rcases exec_cases h with ⟨w, hr', -, rfl⟩ | ⟨v, rfl, rfl⟩ | ⟨v, hi, rfl⟩ | ⟨hw, -, -, -, rfl⟩ | ⟨hw, hb, rfl⟩ |
    ⟨op, d, hc, hw, hb, rfl⟩
  · have : writesOwCmd i = false := by cases i <;> first | rfl | cases hr'
    simp_all [State.flag, raiseFlags]
  · simp_all [State.flag, raiseFlags, writesOwCmd]
  · exact absurd hi (hn v)
  · simp_all [State.flag, raiseFlags, ignoredCycle]
  · have hd : decide (eventBit e = eventBit .owCmdErr) = decide (e = .owCmdErr) := by cases e <;> decide
    simp only [State.flag, rejectCycle_ifg, raiseFlags, BitVec.getLsbD_or, hr, getLsbD_eventMask, hd, hw]
    rcases hb with hb | hb <;> simp [hb, Bool.or_assoc]
  · simp_all [State.flag, raiseFlags]

/-- Every flag after a write of IFG: write-1-to-clear, set wins. -/
theorem ifgCycle_flag (s : State) (v : Word) (e : Event) :
    (ifgCycle s v).flag e = (s.flag e && !v.getLsbD (eventBit e) || unitRaises s e) := by
  have hr := raisedByUnits_getLsbD s e
  have hm : BitVec.getLsbD (0x3F : Word) (eventBit e) = true := by cases e <;> decide
  have : eventBit e < 6 := by cases e <;> decide
  simp only [State.flag, ifgCycle_ifg, clearFlags, BitVec.getLsbD_and, BitVec.getLsbD_or, BitVec.getLsbD_not, hr, hm]
  simp only [show eventBit e < 16 by omega, decide_true, Bool.and_true, Bool.true_and]

/-- A raise of the cycle sets the flag, whatever the access (R207). -/
theorem exec_flag_raised {i : Instr} {s t : State} (h : exec i s = .next t) {e : Event} (hu : unitRaises s e = true) :
    t.flag e = true := by
  by_cases hi : ∃ v, i = .wrIfg v
  · obtain ⟨v, rfl⟩ := hi
    cases h
    rw [show (ifgCycle s v).flag e = _ from ifgCycle_flag s v e]
    simp [hu]
  · rw [exec_flag h fun v h => hi ⟨v, h⟩]
    simp [hu]

/-- A flag that no unit raises in the cycle, OW_CMD_ERR apart, is set after it only if it was set before (R205). -/
theorem exec_flag_of_not_raised {i : Instr} {s t : State} (h : exec i s = .next t) {e : Event}
    (hu : unitRaises s e = false) (he : e ≠ .owCmdErr) (ht : t.flag e = true) : s.flag e = true := by
  by_cases hi : ∃ v, i = .wrIfg v
  · obtain ⟨v, rfl⟩ := hi
    cases h
    rw [show (ifgCycle s v).flag e = _ from ifgCycle_flag s v e] at ht
    simp_all
  · rw [exec_flag h fun v h => hi ⟨v, h⟩] at ht
    simpa [hu, he] using ht

/-! ## The step -/

/-- What a step can do: reset, a cycle with no access, or the meaning of the access. -/
theorem step_cases {s t : State} (h : step s = .next t) :
    s.params.Legal ∧
    ((s.rst = true ∧ ∃ r, t = resetCycle s.taken r) ∨
     (s.rst = false ∧ s.access = none ∧ t = s.taken.cycleNext) ∨
     (s.rst = false ∧ ∃ op i, s.access = some op ∧ decode op = .ok i ∧ exec i s.taken = .next t)) := by
  unfold step at h
  split at h
  · rename_i hl
    refine ⟨hl, ?_⟩
    split at h
    · rename_i ha
      cases h
      cases hr : s.rst
      · exact .inr (.inl ⟨rfl, ha, by simp [quietStep, hr]⟩)
      · exact .inl ⟨rfl, none, by simp [quietStep, hr]⟩
    · rename_i op ha
      split at h
      · rename_i i hd
        unfold accessStep at h
        split at h
        · rename_i hr
          exact .inl ⟨hr, _, by cases h; rfl⟩
        · rename_i hr
          exact .inr (.inr ⟨by simpa using hr, op, i, ha, hd, h⟩)
      · cases h
  · cases h

end Sys2Proof.Machine
end

