-- ==== Sys2Proof/Laws/PerInstr.lean ====
section
/-! SUPPORT. Per-instruction families. `InContract`: the bus access of a well-formed instruction is a 16-bit access at an even
offset (20_memory.md R76). -/

namespace Sys2Proof.Laws.InContract

open Sys2Proof

/-- The encoding of a well-formed instruction is inside the interface contract (R76). -/
def Statement (i : Instr) : Prop := i.WellFormed → inContract (encode i) = true

theorem encodeCmd_inContract (op : OwOp) (data : Byte) : inContract (encodeCmd op data) = true := by
  simp [inContract, encodeCmd, portView]

theorem encodeRead_inContract (off : BitVec 5) (h : off.getLsbD 0 = false) : inContract (encodeRead off) = true := by
  revert h; revert off; decide

theorem encodeWrite_inContract (off : BitVec 5) (v : Word) (h : off.getLsbD 0 = false) :
    inContract (encodeWrite off v) = true := by
  have : ∀ off : BitVec 5, off.getLsbD 0 = false → (!(descOff (1#1 ++ off)).getLsbD 0) = true := by decide
  simpa [inContract, encodeWrite, portView] using this off h

theorem reservedOffset_even (off : BitVec 5) (h : reservedOffset off = true) : off.getLsbD 0 = false := by
  revert h; revert off; decide

theorem nop (d : Byte) : Statement (.nop d) := fun _ => encodeCmd_inContract .nop d
theorem reset (d : Byte) : Statement (.reset d) := fun _ => encodeCmd_inContract .reset d
theorem writeBit (d : Byte) : Statement (.writeBit d) := fun _ => encodeCmd_inContract .writeBit d
theorem readBit (d : Byte) : Statement (.readBit d) := fun _ => encodeCmd_inContract .readBit d
theorem writeByte (d : Byte) : Statement (.writeByte d) := fun _ => encodeCmd_inContract .writeByte d
theorem readByte (d : Byte) : Statement (.readByte d) := fun _ => encodeCmd_inContract .readByte d
theorem driveHigh (d : Byte) : Statement (.driveHigh d) := fun _ => encodeCmd_inContract .driveHigh d
theorem release (d : Byte) : Statement (.release d) := fun _ => encodeCmd_inContract .release d
theorem rdCtrl : Statement .rdCtrl := fun _ => encodeRead_inContract _ rfl
theorem rdIfg : Statement .rdIfg := fun _ => encodeRead_inContract _ rfl
theorem rdOwCmd : Statement .rdOwCmd := fun _ => encodeRead_inContract _ rfl
theorem rdOwStat : Statement .rdOwStat := fun _ => encodeRead_inContract _ rfl
theorem rdOwRdata : Statement .rdOwRdata := fun _ => encodeRead_inContract _ rfl
theorem rdTxStat : Statement .rdTxStat := fun _ => encodeRead_inContract _ rfl
theorem rdRxStat : Statement .rdRxStat := fun _ => encodeRead_inContract _ rfl
theorem rdPeer : Statement .rdPeer := fun _ => encodeRead_inContract _ rfl
theorem rdBeatCnt : Statement .rdBeatCnt := fun _ => encodeRead_inContract _ rfl
theorem rdFrame : Statement .rdFrame := fun _ => encodeRead_inContract _ rfl
theorem rdBtnStat : Statement .rdBtnStat := fun _ => encodeRead_inContract _ rfl
theorem rdHold : Statement .rdHold := fun _ => encodeRead_inContract _ rfl
theorem wrCtrl (v : Word) : Statement (.wrCtrl v) := fun _ => encodeWrite_inContract _ v rfl
theorem wrIfg (v : Word) : Statement (.wrIfg v) := fun _ => encodeWrite_inContract _ v rfl
theorem wrOwCmd (v : Word) : Statement (.wrOwCmd v) := fun _ => encodeWrite_inContract _ v rfl
theorem wrOwStat (v : Word) : Statement (.wrOwStat v) := fun _ => encodeWrite_inContract _ v rfl
theorem wrOwRdata (v : Word) : Statement (.wrOwRdata v) := fun _ => encodeWrite_inContract _ v rfl
theorem wrTxStat (v : Word) : Statement (.wrTxStat v) := fun _ => encodeWrite_inContract _ v rfl
theorem wrRxStat (v : Word) : Statement (.wrRxStat v) := fun _ => encodeWrite_inContract _ v rfl
theorem wrPeer (v : Word) : Statement (.wrPeer v) := fun _ => encodeWrite_inContract _ v rfl
theorem wrBeatCnt (v : Word) : Statement (.wrBeatCnt v) := fun _ => encodeWrite_inContract _ v rfl
theorem wrFrame (v : Word) : Statement (.wrFrame v) := fun _ => encodeWrite_inContract _ v rfl
theorem wrBtnStat (v : Word) : Statement (.wrBtnStat v) := fun _ => encodeWrite_inContract _ v rfl
theorem wrHold (v : Word) : Statement (.wrHold v) := fun _ => encodeWrite_inContract _ v rfl
theorem rdRsvd (off : BitVec 5) : Statement (.rdRsvd off) := fun h =>
  encodeRead_inContract off (reservedOffset_even off h)
theorem wrRsvd (off : BitVec 5) (v : Word) : Statement (.wrRsvd off v) := fun h =>
  encodeWrite_inContract off v (reservedOffset_even off h)

end Sys2Proof.Laws.InContract
end

