-- ==== Sys2Proof/Tests/Slice0.lean ====
section
/-! SUPPORT. The model's own tests: the well-formedness smoke test, a word written out from the spec for every constructor, single
steps with results from spec/95_test_vectors.md, and a witness for the hypotheses of every statement that has some. -/

namespace Sys2Proof.Tests

open Sys2Proof Sys2Proof.Machine

/-! ## Helpers -/

/-- The state after one instruction. -/
def after (i : Instr) (s : State) : State :=
  match exec i s with
  | .next t => t
  | .fault _ => s
  | .refused _ => s

/-- The state after one step. -/
def stepped (s : State) : State :=
  match step s with
  | .next t => t
  | .fault _ => s
  | .refused _ => s

/-- Whether a step is refused for `r`. -/
def refusedFor (r : Refusal) (s : State) : Bool :=
  match step s with
  | .next _ => false
  | .fault _ => false
  | .refused q => q == r

/-- The smallest parameter set of the constraints of R8, with one synchronizer stage. -/
def smallParams : Params :=
  { Params.default with syncStages := 1, slotCycles := 2, framePeriod := 7, rxSlotCycles := 2, rxHalfCycles := 1, carrierHalfCycles := 1 }

/-- A state of the small parameter set with the given levels synchronized and the given enables. -/
def small (ctrl : Word) (pins : Pins) : State := { State.resetOf smallParams with ctrl := ctrl, sync := [pins] }

/-- Every input idle: line high, no carrier, buttons released. -/
def idlePins : Pins := { ow := true, ir := true, btn := 0xF }

/-- A one-wire master in the middle of operation `op`, in its phase `ph`, bit `b`, with `c` cycles left. -/
def running (op : OwOp) (ph : OwPhase) (b : BitVec 3) (c : Nat) (line : Bool) (s1 : Bool := false) : State :=
  { State.reset with
    ow := { State.reset.ow with busy := true, op := op, phase := ph, bit := b, cnt := c, wdata := 0xA5, s1 := s1 }
    sync := [{ idlePins with ow := line }] }

/-- A receiver in state `st` with `c` cycles left and level `ir`. -/
def receiving (st : RxState) (c : Nat) (ir : Bool) (ctrl : Word := 0x0004) : State :=
  { small ctrl { idlePins with ir := ir } with rx := { prev := true, state := st, cnt := c, acc := 0b0101 } }

/-! ## Well-formedness -/

theorem test_wellFormed_refuses_reserved_read_below : ¬ (Instr.rdRsvd 0x16).WellFormed := by decide

theorem test_wellFormed_refuses_reserved_read_odd : ¬ (Instr.rdRsvd 0x1B).WellFormed := by decide

theorem test_wellFormed_refuses_reserved_write : ¬ (Instr.wrRsvd 0x00 0xFFFF).WellFormed := by decide

theorem test_wellFormed_admits_the_four_reserved_offsets :
    (Instr.rdRsvd 0x18).WellFormed ∧ (Instr.rdRsvd 0x1A).WellFormed ∧ (Instr.wrRsvd 0x1C 0).WellFormed ∧
    (Instr.wrRsvd 0x1E 0).WellFormed := by decide

/-! ## Decoding: words written out from 30_encoding.md R98, R99, R102 and 10_state.md R48 -/

/-- `DATA` 15:8, `RSV` 7:3 = 0, `OP` 2:0, for each of the eight operations. -/
theorem test_decode_commands :
    decodeTableWord 16 0b0000000000000000 = some (.nop 0x00) ∧
    decodeTableWord 16 0b0000000000000001 = some (.reset 0x00) ∧
    decodeTableWord 16 0b0000000100000010 = some (.writeBit 0x01) ∧
    decodeTableWord 16 0b0000000000000011 = some (.readBit 0x00) ∧
    decodeTableWord 16 0b1010010100000100 = some (.writeByte 0xA5) ∧
    decodeTableWord 16 0b0000000000000101 = some (.readByte 0x00) ∧
    decodeTableWord 16 0b1000000000000110 = some (.driveHigh 0x80) ∧
    decodeTableWord 16 0b0000000000000111 = some (.release 0x00) := by decide

/-- `W` = 0 and the twelve offsets. -/
theorem test_decode_reads :
    decodeTableWord 8 0b000000 = some .rdCtrl ∧ decodeTableWord 8 0b000010 = some .rdIfg ∧
    decodeTableWord 8 0b000100 = some .rdOwCmd ∧ decodeTableWord 8 0b000110 = some .rdOwStat ∧
    decodeTableWord 8 0b001000 = some .rdOwRdata ∧ decodeTableWord 8 0b001010 = some .rdTxStat ∧
    decodeTableWord 8 0b001100 = some .rdRxStat ∧ decodeTableWord 8 0b001110 = some .rdPeer ∧
    decodeTableWord 8 0b010000 = some .rdBeatCnt ∧ decodeTableWord 8 0b010010 = some .rdFrame ∧
    decodeTableWord 8 0b010100 = some .rdBtnStat ∧ decodeTableWord 8 0b010110 = some .rdHold := by decide

/-- `W` = 1 and the twelve offsets, with the data word in the two bytes above the descriptor. -/
theorem test_decode_writes :
    decodeTableWord 24 0x123420 = some (.wrCtrl 0x1234) ∧ decodeTableWord 24 0x123422 = some (.wrIfg 0x1234) ∧
    decodeTableWord 24 0x123424 = some (.wrOwCmd 0x1234) ∧ decodeTableWord 24 0x123426 = some (.wrOwStat 0x1234) ∧
    decodeTableWord 24 0x123428 = some (.wrOwRdata 0x1234) ∧ decodeTableWord 24 0x12342A = some (.wrTxStat 0x1234) ∧
    decodeTableWord 24 0x12342C = some (.wrRxStat 0x1234) ∧ decodeTableWord 24 0x12342E = some (.wrPeer 0x1234) ∧
    decodeTableWord 24 0x123430 = some (.wrBeatCnt 0x1234) ∧ decodeTableWord 24 0x123432 = some (.wrFrame 0x1234) ∧
    decodeTableWord 24 0x123434 = some (.wrBtnStat 0x1234) ∧ decodeTableWord 24 0x123436 = some (.wrHold 0x1234) := by
  decide

theorem test_decode_reserved_offsets :
    decodeTableWord 8 0b011000 = some (.rdRsvd 0x18) ∧ decodeTableWord 8 0b011110 = some (.rdRsvd 0x1E) ∧
    decodeTableWord 8 0b111010 = some (.wrRsvd 0x1A 0x0000) ∧ decodeTableWord 24 0xFFFF3C = some (.wrRsvd 0x1C 0xFFFF) := by
  decide

/-- A nonzero `RSV` (R101), an odd offset (R76), a byte that is no descriptor, the low byte of a CMD row that no ACC row matches
(log 8), and an 8-bit access. -/
theorem test_decode_rejects :
    decodeTableWord 16 0x0009 = some (.wrOwCmd 0x0009) ∧ decodeTableWord 8 0x21 = none ∧ decodeTableWord 8 0x40 = none ∧
    decodeTableWord 8 0x07 = some (.release 0x00) ∧
    decodeBytes [] = .error .badLength ∧ decode (.acc true 0x00 0) = .error .byteAccess ∧
    decode (.acc false 0x17 0) = .error .oddOffset := by decide

/-! ## Single cycles, from spec/95_test_vectors.md -/

/-- H1: every register after reset. -/
theorem test_H1_reset_reads :
    (after .rdOwStat State.reset).busRdata = some 0x0040 ∧ (after .rdRxStat State.reset).busRdata = some 0x0100 ∧
    (after .rdPeer State.reset).busRdata = some 0x1900 ∧ (after .rdFrame State.reset).busRdata = some 0x000B ∧
    (after .rdBtnStat State.reset).busRdata = some 0x0F00 ∧ (after .rdTxStat State.reset).busRdata = some 0x0000 ∧
    (after .rdOwRdata State.reset).busRdata = some 0x0000 ∧ (after .rdBeatCnt State.reset).busRdata = some 0x0000 ∧
    (after .rdHold State.reset).busRdata = some 0x0000 ∧ (after .rdOwCmd State.reset).busRdata = some 0x0000 := by decide

/-- H2: the reserved bits of CTRL are dropped. -/
theorem test_H2_ctrl :
    (after .rdCtrl (after (.wrCtrl 0xFFFF) State.reset)).busRdata = some 0x0F0F := by decide

/-- H3: a reserved offset. -/
theorem test_H3_reserved :
    (after (.rdRsvd 0x18) State.reset).busRdata = some 0x0000 ∧ (after (.wrRsvd 0x18 0xFFFF) State.reset).ctrl = 0 := by decide

/-- H4: a write of a read-only register is ignored. -/
theorem test_H4_read_only :
    (after .rdBeatCnt (after (.wrBeatCnt 0x1234) State.reset)).busRdata = some 0x0000 ∧
    (after (.wrHold 0x1234) State.reset).btn.hold = 0 ∧ (after (.wrPeer 0x1234) State.reset).peer = State.reset.peer ∧
    (after (.wrOwRdata 0x1234) State.reset).ow = State.reset.ow ∧ (after (.wrOwStat 0x1234) State.reset).ow = State.reset.ow ∧
    (after (.wrTxStat 0x1234) State.reset).tx = State.reset.tx ∧ (after (.wrRxStat 0x1234) State.reset).rx = State.reset.rx ∧
    (after (.wrFrame 0x1234) State.reset).tx = State.reset.tx ∧
    (after (.wrBtnStat 0x1234) State.reset).btn = State.reset.btn := by decide

/-- H5: set wins over a write-1-to-clear in the beat's cycle, and the clear works in another cycle. -/
theorem test_H5_set_wins :
    (after (.wrIfg 0x0001) { State.reset with ctrl := 0x0101, ifg := 0x0001, tick := { div := 999, beatCnt := 0 } }).ifg = 0x0001 ∧
    (after (.wrIfg 0x0001) { State.reset with ctrl := 0x0101, ifg := 0x0001, tick := { div := 499, beatCnt := 1 } }).ifg = 0x0000 := by
  decide

/-- H6: only 1 bits clear, and only their own flag. -/
theorem test_H6_clear_own_flag :
    (after .rdIfg (after (.wrIfg 0x0000) { State.reset with ifg := 0x0001 })).busRdata = some 0x0001 ∧
    (after (.wrIfg 0xFFFE) { State.reset with ifg := 0x0001 }).ifg = 0x0001 := by decide

/-- H8: the beat of the cycle in which the tick is disabled still happens. -/
theorem test_H8_old_enables :
    (after (.wrCtrl 0x0000) { State.reset with ctrl := 0x0001, tick := { div := 999, beatCnt := 0 } }).tick =
      { div := 0, beatCnt := 1 } := by decide

/-- O1: RESET is accepted and drives low for 480 cycles. -/
theorem test_O1_reset_accepted :
    (after (.reset 0x00) State.reset).ow.cnt = 480 ∧ (after (.reset 0x00) State.reset).owOe = true ∧
    (after (.reset 0x00) State.reset).owO = false := by decide

/-- O1 to O4: the outcome of RESET, and `OW_STAT` after it. -/
theorem test_O1_to_O4_outcomes :
    (after .rdOwCmd (running .reset .rstPres 0 1 true false)).ow.result = .present ∧
    (after .rdOwCmd (running .reset .rstPres 0 1 true true)).ow.result = .noResponse ∧
    (after .rdOwCmd (running .reset .rstPres 0 1 false false)).ow.result = .lineStuck ∧
    (after .rdOwCmd (running .reset .rstPres 0 1 false true)).ow.result = .lineStuck ∧
    (after .rdOwCmd (running .reset .rstPres 0 1 true false)).ifg = 0x0002 := by decide

/-- O6, O7: the low times of the two write slots; only `DATA[0]` counts. -/
theorem test_O6_O7_write_bit :
    (after (.writeBit 0x01) State.reset).ow.cnt = 5 ∧ (after (.writeBit 0xFE) State.reset).ow.cnt = 60 ∧
    (after (.writeBit 0xFF) State.reset).ow.wdata = 0x01 := by decide

/-- O8: the read slot's low time. -/
theorem test_O8_read_bit : (after (.readBit 0x00) State.reset).ow.cnt = 1 ∧ (after (.readBit 0x00) State.reset).ow.role = .driveLow := by
  decide

/-- O11: 0xA5 starts with a 1 slot, latched whole; after bit 0 the 0 slot of bit 1 follows. -/
theorem test_O11_write_byte :
    (after (.writeByte 0xA5) State.reset).ow.wdata = 0xA5 ∧ (after (.writeByte 0xA5) State.reset).ow.cnt = 5 ∧
    (after .rdOwCmd (running .writeByte .wrRel 0 1 true)).ow.cnt = 60 ∧
    (after .rdOwCmd (running .writeByte .wrRel 0 1 true)).ow.bit = 1 := by decide

/-- O12: the sample of slot 3 lands in bit 3. -/
theorem test_O12_read_byte :
    (after (.readByte 0x00) State.reset).ow.op = .readByte ∧
    (after .rdOwCmd (running .readByte .rdSamp 3 1 true)).ow.shift = 0x08 := by decide

/-- O14: a command while busy is rejected. -/
theorem test_O14_busy_rejected :
    (after (.writeByte 0xFF) (after (.reset 0x00) State.reset)).ifg = 0x0020 ∧
    (after (.writeByte 0xFF) (after (.reset 0x00) State.reset)).ow.op = .reset := by decide

/-- O15: 0x0009 has `RSV` = 1. -/
theorem test_O15_rsv_rejected :
    (after (.wrOwCmd 0x0009) State.reset).ifg = 0x0020 ∧ (after (.wrOwCmd 0x0009) State.reset).ow = State.reset.ow ∧
    (after (.wrOwCmd 0xA504) State.reset).ow = (after (.writeByte 0xA5) State.reset).ow := by decide

/-- O17: DRIVE_HIGH and RELEASE, through `OW_STAT` 0x064C and 0x0740. -/
theorem test_O17_drive_high_release :
    (after .rdOwStat (after (.driveHigh 0x00) State.reset)).busRdata = some 0x064C ∧
    (after .rdOwStat (after (.release 0x00) { State.reset with ow := (after (.driveHigh 0x00) State.reset).ow })).busRdata =
      some 0x0740 := by decide

/-- O18: NOP keeps `ow_op` and raises no flag. -/
theorem test_O18_nop :
    (after (.nop 0x00) { State.reset with ow := { State.reset.ow with op := .readBit } }).ow.op = .readBit ∧
    (after (.nop 0x00) State.reset).ifg = 0x0000 := by decide

/-- T3, T5: the press that the decay of its own cycle lets through, and the lowest of two presses. -/
theorem test_T3_T5_presses :
    (after .rdBtnStat { State.reset with
      ctrl := 0x0809, tick := { div := 999, beatCnt := 19 }, btn := { State.reset.btn with db := ⟨1, 0, 0, 0⟩ },
      sync := [{ idlePins with btn := 0xE }] }).btn.db = ⟨20, 0, 0, 0⟩ ∧
    (after .rdBtnStat { State.reset with ctrl := 0x0809, sync := [{ idlePins with btn := 0x5 }] }).btn.localVal = 2 ∧
    (after .rdBtnStat { State.reset with ctrl := 0x0809, sync := [{ idlePins with btn := 0x5 }] }).btn.db = ⟨0, 20, 0, 20⟩ := by
  decide

/-- X1: the beat that begins slot 0 with value 3, through `TX_STAT` 0x0733. -/
theorem test_X1_slot_zero :
    (after .rdTxStat (after .rdOwCmd { State.reset with
      ctrl := 0x0F0F, tick := { div := 999, beatCnt := 0 },
      btn := { State.reset.btn with localVal := 3, hold := 48 } })).busRdata = some 0x0733 := by decide

/-- V1: the edge starts a reception, and a STOP firing that reads idle publishes. -/
theorem test_V1_receive :
    (after .rdRxStat (after .rdOwCmd { State.reset with
      ctrl := 0x0004, sync := [{ idlePins with ir := false }, { idlePins with ir := false }] })).busRdata = some 0x0001 ∧
    (after .rdPeer (after .rdOwCmd (receiving .stop 1 true))).busRdata = some 0x0015 := by decide

/-- V6: the 25th beat after a publish makes the peer stale. -/
theorem test_V6_stale :
    (after .rdPeer (after .rdOwCmd { State.reset with
      ctrl := 0x0001, tick := { div := 999, beatCnt := 0 }, peer := { val := 3, valid := true, age := 24 } })).busRdata =
      some 0x1900 := by decide

/-- Q2: the pending flag is not lost by masking. -/
theorem test_Q2_mask :
    ({ State.reset with ctrl := 0x0001, ifg := 0x0001 } : State).irq .tick = false ∧
    (after (.wrCtrl 0x0101) { State.reset with ctrl := 0x0001, ifg := 0x0001 }).irq .tick = true := by decide

/-- The very next step runs the placed instruction. -/
theorem test_withFetchWord :
    (stepped (State.reset.withFetchWord 16 0x0001)).ow.phase = .rstLow ∧
    (stepped (State.reset.withFetchWord 8 0x0E)).busRdata = some 0x1900 ∧
    (stepped (State.reset.withFetchWord 24 0x0F0F20)).ctrl = 0x0F0F := by decide

/-! ## Traces without host accesses, for the statements about runs -/

/-- The states of a run from `s` in which the host does nothing. -/
def trace (s : State) : Nat → State
  | 0 => s
  | k + 1 => (trace s k).taken.cycleNext

/-- The parameters, the enables and the empty scripts along such a run. -/
theorem trace_keeps (s : State) (hh : s.hostQ = []) (hr : s.rstQ = []) (k : Nat) :
    (trace s k).params = s.params ∧ (trace s k).ctrl = s.ctrl ∧ (trace s k).hostQ = [] ∧ (trace s k).rstQ = [] := by
  induction k with
  | zero => exact ⟨rfl, rfl, hh, hr⟩
  | succ k ih => simp [trace, ih]

theorem trace_run (s : State) (hl : s.params.Legal) (hh : s.hostQ = []) (hr : s.rstQ = []) (n : Nat) : Run (trace s) n := by
  intro k _
  obtain ⟨hp, -, hq, hz⟩ := trace_keeps s hh hr k
  have hrst : (trace s k).rst = false := by simp [State.rst, hz]
  refine ⟨hrst, ?_⟩
  have hl' : (trace s k).params.Legal := by rw [hp]; exact hl
  simp [step, hl', State.access, hq, quietStep, hrst, trace]

/-! ## Witnesses: a state and operands that meet the hypotheses of each statement -/

theorem witness_DecodeOfEncodeIsTheInstruction : (Instr.wrRsvd 0x1E 0xFFFF).WellFormed ∧ (Instr.writeByte 0xFF).WellFormed := by
  decide

theorem witness_ContractAccessesDecodeAndOthersAreRejected :
    inContract (.acc false 0x3E 0xFFFF) = true ∧ inContract (.cmd 0xFFFF) = true ∧ inContract (.acc false 0x1F 0) = false ∧
    inContract (.acc true 0x00 0) = false := by decide

theorem witness_StepRunsTheDecodedInstruction :
    let s : State := { State.reset with hostQ := [some (.cmd 0x0001)] }
    s.params.Legal ∧ s.rst = false ∧ s.access = some (.cmd 0x0001) ∧ decode (.cmd 0x0001) = .ok (.reset 0x00) ∧
    State.reset.access = none := by decide

theorem witness_AccessesOutsideTheContractAreRefused :
    refusedFor .byteAccess { State.reset with hostQ := [some (.acc true 0x00 0)] } = true ∧
    refusedFor .oddOffset { State.reset with hostQ := [some (.acc false 0x01 0)] } = true ∧
    refusedFor .oddOffset { State.reset with hostQ := [some (.acc false 0x3F 0)] } = true ∧
    State.reset.params.Legal := by decide

theorem witness_IllegalParametersAreRefused :
    ¬ { Params.default with framePeriod := 6 }.Legal ∧
    refusedFor .illegalParameters (State.resetOf { Params.default with framePeriod := 128 }) = true := by decide

theorem witness_ContractCyclesComplete :
    let s : State := { State.reset with hostQ := [some (.acc false 0x1E 0)] }
    s.params.Legal ∧ ∀ op, s.access = some op → inContract op = true := by
  refine ⟨by decide, fun op h => ?_⟩
  have : some (HostOp.acc false 0x1E 0) = some op := h
  cases this; decide

theorem witness_SampleIsThePinSyncStagesEarlier :
    Run (trace State.reset) 5 ∧ State.reset.sync.length = State.reset.params.syncStages ∧ 1 ≤ State.reset.params.syncStages ∧
    3 + State.reset.params.syncStages ≤ 5 :=
  ⟨trace_run _ (by decide) rfl rfl _, by decide, by decide, by decide⟩

theorem witness_RstMakesTheResetState :
    let s : State := { State.reset with rstQ := [true], hostQ := [some (.acc false 0x20 0x0F0F)] }
    s.params.Legal ∧ s.rst = true ∧ (∀ op, s.access = some op → inContract op = true) ∧
    decode (.acc false 0x20 0x0F0F) = .ok (.wrCtrl 0x0F0F) ∧ ({ State.reset with rstQ := [true] } : State).access = none := by
  refine ⟨by decide, by decide, fun op h => ?_, by decide, by decide⟩
  have : some (HostOp.acc false 0x20 0x0F0F) = some op := h
  cases this; decide

theorem witness_ResetStateMeetsTheInvariant : Params.default.Legal ∧ smallParams.Legal := by decide

theorem witness_EveryStepKeepsTheInvariant : State.reset.Inv ∧ step State.reset = .next (trace State.reset 1) :=
  ⟨⟨by decide, by decide, by decide,
    ⟨by decide, by decide, by decide, by decide, by decide, by decide⟩, by decide,
    ⟨by decide, by decide, by decide, by decide⟩, ⟨by decide, by decide, by decide, by decide, by decide⟩,
    ⟨by decide, by decide⟩, ⟨by decide, by decide, by decide⟩, by decide⟩,
    (trace_run State.reset (by decide) rfl rfl 1 0 (by decide)).2⟩

/-- Every role, result and operation. -/
theorem witness_OwStatRegister (r : LineRole) (res : OwResult) (op : OwOp) :
    let s : State := { State.reset with ow := { State.reset.ow with role := r, result := res, op := op } }
    s.ow.role = r ∧ s.ow.result = res ∧ s.ow.op = op := ⟨rfl, rfl, rfl⟩

/-- Every receiver state. -/
theorem witness_RxStatRegister (st : RxState) : (receiving st 1 true).rx.state = st := rfl

theorem witness_PeerRegister :
    let s := State.resetOf { Params.default with framePeriod := 127 }
    s.params.Legal ∧ s.peer.age ≤ ageMax s.params ∧ s.peer.age = 255 := by decide

theorem witness_FrameRegister :
    let s := State.resetOf { Params.default with framePeriod := 127 }
    s.params.Legal ∧ s.tx.slot < s.params.framePeriod ∧ s.tx.slot = 126 := by decide

theorem witness_RegistersReadAfterReset : reservedOffset 0x18 = true ∧ reservedOffset 0x1E = true := by decide

theorem witness_ReservedOffsetsReadZeroAndIgnoreWrites :
    (0x1E#5 = 0x18#5 ∨ 0x1E#5 = 0x1A#5 ∨ 0x1E#5 = 0x1C#5 ∨ 0x1E#5 = 0x1E#5) := by decide

theorem witness_OnlyThreeWritesHaveSideEffects :
    writesOwCmd .rdPeer = false ∧ (∀ v, Instr.rdPeer ≠ .wrCtrl v) ∧ (∀ v, Instr.rdPeer ≠ .wrIfg v) :=
  ⟨rfl, nofun, nofun⟩

theorem witness_OwCmdWriteIsACommand : State.reset.ow.busy = false ∧ cmdRsv 0xFF04 = 0 := by decide

theorem witness_RejectedCommandOnlyRaisesItsFlag :
    (writesOwCmd (.nop 0) = true ∧ (running .reset .rstLow 0 1 true).ow.busy = true) ∧
    (writesOwCmd (.wrOwCmd 0x0008) = true ∧ isCommand (.wrOwCmd 0x0008) = false) ∧ isCommand (.wrOwCmd 0x0007) = true := by
  decide

/-- Also for DRIVE_HIGH and for RELEASE, whose last clause needs a line that is already released. -/
theorem witness_AcceptedTimedOperationsStart :
    State.reset.ow.busy = false ∧ State.reset.ow.role = .released ∧ State.reset.ow.idleHigh = false := by decide

theorem witness_NopChangesNothing :
    State.reset.ow.busy = false ∧ (running .readBit .rdLow 0 1 true).ow.busy = true ∧
    cmdOpField 0x0008 = 0 ∧ cmdRsv 0x0008 ≠ 0 ∧ decode (.cmd 0x0008) = .ok (.wrOwCmd 0x0008) := by decide

theorem witness_EngineCountsDownItsPhase :
    (running .reset .rstLow 0 2 true).ow.busy = true ∧ 1 < (running .reset .rstLow 0 2 true).ow.cnt ∧
    State.reset.ow.busy = false ∧ writesOwCmd .rdOwStat = false := by decide

/-- One state for each clause, and the least and the greatest bit that another bit follows. -/
theorem witness_PhaseEndsEnterTheNextPhase :
    (∀ op ph b line, (running op ph b 1 line).ow.busy = true ∧ (running op ph b 1 line).ow.cnt ≤ 1 ∧
      (running op ph b 1 line).ow.phase = ph ∧ (running op ph b 1 line).ow.op = op ∧
      (running op ph b 1 line).ow.bit = b) ∧
    (running .writeByte .wrRel 0 1 true).ow.bit.toNat < 7 ∧ (running .readByte .rdRest 6 1 true).ow.bit.toNat < 7 :=
  ⟨fun _ _ _ _ => ⟨rfl, le_refl 1, rfl, rfl, rfl⟩, by decide, by decide⟩

theorem witness_FinishPublishesAndRaisesDone :
    (running .reset .rstPres 0 1 true).ow.busy = true ∧ (running .reset .rstPres 0 1 true).ow.cnt ≤ 1 ∧
    (running .reset .rstPres 0 1 true).ow.phase = .rstPres ∧
    ((running .writeByte .wrRel 7 1 true).ow.phase = .wrRel ∧
      ¬((running .writeByte .wrRel 7 1 true).ow.op = .writeByte ∧ (running .writeByte .wrRel 7 1 true).ow.bit.toNat < 7)) ∧
    ((running .readBit .rdRest 0 1 true).ow.phase = .rdRest ∧
      ¬((running .readBit .rdRest 0 1 true).ow.op = .readByte ∧ (running .readBit .rdRest 0 1 true).ow.bit.toNat < 7)) := by
  decide

/-- Each pair of samples. -/
theorem witness_ResetOutcomeFromItsTwoSamples (s1 s2 : Bool) :
    let s := running .reset .rstPres 0 1 s2 s1
    s.ow.busy = true ∧ s.ow.cnt ≤ 1 ∧ s.ow.phase = .rstPres ∧ s.ow.s1 = s1 ∧ s.sample.ow = s2 :=
  ⟨rfl, le_refl 1, rfl, rfl, rfl⟩

/-- Each timed operation, from the reset state, with no further access. -/
theorem witness_TimedOperationLastsItsLength (op : OwOp) (data : Byte) (n : Nat) :
    let tr := trace (after (instrOfOp op data) State.reset)
    State.reset.params.Legal ∧ State.reset.ow.busy = false ∧ exec (instrOfOp op data) State.reset = .next (tr 0) ∧ Run tr n := by
  refine ⟨by decide, rfl, ?_, ?_⟩
  · cases op <;> rfl
  · exact trace_run _ (by cases op <;> (show Params.default.Legal; decide)) (by cases op <;> rfl) (by cases op <;> rfl) n

theorem witness_ResetRunsItsSequence :
    let tr := trace (after (.reset 0x00) State.reset)
    State.reset.params.Legal ∧ State.reset.ow.busy = false ∧ exec (.reset 0x00) State.reset = .next (tr 0) ∧
    Run tr (resetLen State.reset.params) :=
  witness_TimedOperationLastsItsLength .reset 0x00 _

theorem witness_WriteByteDrivesItsBitsLsbFirst :
    let tr := trace (after (.writeByte 0xA5) State.reset)
    State.reset.params.Legal ∧ State.reset.ow.busy = false ∧ exec (.writeByte 0xA5) State.reset = .next (tr 0) ∧
    Run tr (writeSlotStart State.reset.params 0xA5 8) :=
  witness_TimedOperationLastsItsLength .writeByte 0xA5 _

theorem witness_ReadByteAssemblesItsSamplesLsbFirst :
    let tr := trace (after (.readByte 0x00) State.reset)
    State.reset.params.Legal ∧ State.reset.ow.busy = false ∧ exec (.readByte 0x00) State.reset = .next (tr 0) ∧
    Run tr (8 * readSlotLen State.reset.params) :=
  witness_TimedOperationLastsItsLength .readByte 0x00 _

theorem witness_ReadBitPublishesItsSample :
    let tr := trace (after (.readBit 0x00) State.reset)
    State.reset.params.Legal ∧ State.reset.ow.busy = false ∧ exec (.readBit 0x00) State.reset = .next (tr 0) ∧
    Run tr (readSlotLen State.reset.params) :=
  witness_TimedOperationLastsItsLength .readBit 0x00 _

theorem witness_HostCannotDisturbARunningOperation : (running .writeByte .wrLow 3 2 true).ow.busy = true := by decide

theorem witness_UnitsDoNotDependOnTheAccess :
    writesOwCmd .rdIfg = false ∧ writesOwCmd (.wrIfg 0xFFFF) = false ∧ (∀ v, Instr.rdIfg ≠ .wrCtrl v) := ⟨rfl, rfl, nofun⟩

/-- A raise, a rejection, a flag that stays, a clear that works. -/
theorem witness_FlagsAreStickyAndSetWins :
    unitRaises { State.reset with ctrl := 0x0001, tick := { div := 999, beatCnt := 0 } } .tick = true ∧
    (writesOwCmd (.wrOwCmd 0xFFFF) = true ∧ isCommand (.wrOwCmd 0xFFFF) = false) ∧
    (({ State.reset with ifg := 0x0020 } : State).flag .owCmdErr = true ∧ (0x001F : Word).getLsbD (eventBit .owCmdErr) = false) ∧
    ((0x0020 : Word).getLsbD (eventBit .owCmdErr) = true ∧ unitRaises { State.reset with ifg := 0x0020 } .owCmdErr = false) := by
  decide

theorem witness_InterruptLinesFollowFlagsAndEnables :
    let s : State := { State.reset with ctrl := 0x0F00, ifg := 0x000F }
    (∀ l, s.irq l = true) ∧ (0x000F : Word).getLsbD 0 = true ∧ (0x000F : Word).getLsbD 3 = true ∧ beat s = false ∧
    owFinishes s.ow = false ∧ rxPublishes s = false ∧ anyHonoured s = false :=
  ⟨by intro l; cases l <;> decide, by decide, by decide, by decide, by decide, by decide, by decide⟩

/-- The last count and the one before it. -/
theorem witness_TickDividerMakesBeats :
    ({ State.reset with ctrl := 0x0001 } : State).ctrl.getLsbD 0 = true ∧ 999 = State.reset.params.slotCycles - 1 ∧
    998 ≠ State.reset.params.slotCycles - 1 := by decide

theorem witness_DisabledTickFreezes :
    State.reset.ctrl.getLsbD 0 = false ∧ honoured State.reset 0 = false ∧ anyHonoured State.reset = false ∧
    rxPublishes State.reset = false := by decide

theorem witness_BeatsComeEverySlotCycles (n : Nat) :
    let tr := trace (after (.wrCtrl 0x0001) State.reset)
    State.reset.params.Legal ∧ State.reset.tickEn = false ∧ (0x0001 : Word).getLsbD 0 = true ∧
    exec (.wrCtrl 0x0001) State.reset = .next (tr 0) ∧ Run tr n ∧ ∀ k, k < n → (tr k).tickEn = true := by
  refine ⟨by decide, by decide, by decide, rfl, trace_run _ (by decide) rfl rfl n, fun k _ => ?_⟩
  rw [State.tickEn, (trace_keeps _ rfl rfl k).2.1]; decide

/-- Button 0 honoured in a beat with its counter at 1, and not honoured with its counter at 2. -/
theorem witness_ButtonBankHonoursPresses :
    let s (d : Word) : State := { State.reset with
      ctrl := 0x0009, tick := { div := 999, beatCnt := 0 }, btn := { State.reset.btn with db := ⟨d, 0, 0, 0⟩ },
      sync := [{ idlePins with btn := 0xE }] }
    honoured (s 1) 0 = true ∧ honoured (s 2) 0 = false ∧ beat (s 1) = true ∧ anyHonoured State.reset = false ∧
    beat State.reset = false := by decide

/-- The beats that begin slot 0, slot 1 and slot 5, and a cycle that is no beat. -/
theorem witness_TransmitterAdvancesInBeats :
    let s (slot div : Nat) : State := { small 0x0003 idlePins with
      tick := { div := div, beatCnt := 0 }, tx := { (small 0x0003 idlePins).tx with slot := slot } }
    (s 6 1).ctrl.getLsbD 0 = true ∧ (s 6 1).tick.div = (s 6 1).params.slotCycles - 1 ∧ nextSlot (s 6 1) = 0 ∧
    nextSlot (s 0 1) = 1 ∧ nextSlot (s 4 1) = 5 ∧ (s 6 0).tick.div ≠ (s 6 0).params.slotCycles - 1 := by decide

theorem witness_CarrierTogglesWhileTransmitting :
    let s (c : Nat) : State := { State.reset with tx := { State.reset.tx with transmit := true, carCnt := c } }
    State.reset.tx.transmit = false ∧ (s 12).tx.transmit = true ∧ (s 12).tx.carCnt = (s 12).params.carrierHalfCycles - 1 ∧
    (s 11).tx.carCnt ≠ (s 11).params.carrierHalfCycles - 1 := by decide

/-- A state in whose cycle a beat begins slot 0 of a frame of value 3. -/
def frameStart : State :=
  { small 0x0003 idlePins with
    tick := { div := 1, beatCnt := 0 }
    btn := { (small 0x0003 idlePins).btn with localVal := 3, hold := 48 } }

theorem witness_TransmitterSendsTheLatchedFrame (n : Nat) :
    (trace frameStart 0).params.Legal ∧ (trace frameStart 0).txEn = true ∧ beat (trace frameStart 0) = true ∧
    nextSlot (trace frameStart 0) = 0 ∧ (trace frameStart 0).btn.localVal ≠ 0 ∧ Run (trace frameStart) n ∧
    ∀ k, k < n → (trace frameStart k).tickEn = true := by
  refine ⟨by decide, by decide, by decide, by decide, by decide, trace_run _ (by decide) rfl rfl n, fun k _ => ?_⟩
  rw [State.tickEn, (trace_keeps _ rfl rfl k).2.1]; decide

theorem witness_ReceiverStartsOnAFallingEdge :
    let s := receiving .idle 0 false
    s.ctrl.getLsbD 2 = true ∧ s.rx.state = .idle ∧ s.rx.prev = true ∧ s.sample.ir = false ∧
    ¬((receiving .idle 0 true).rx.prev = true ∧ (receiving .idle 0 true).sample.ir = false) := by decide

theorem witness_DisabledReceiverIsIdle : (receiving .b2 1 true 0x0000).ctrl.getLsbD 2 = false := by decide

/-- The timer at 2 and at 1; START and STOP with either level. -/
theorem witness_ReceiverFiringsFollowTheFrame (st : RxState) (h : st ≠ .idle) (ir : Bool) :
    (receiving st 1 ir).ctrl.getLsbD 2 = true ∧ (receiving st 1 ir).rx.state ≠ .idle ∧ (receiving st 1 ir).rx.state = st ∧
    (receiving st 1 ir).sample.ir = ir ∧ (receiving st 1 ir).rx.cnt ≤ 1 ∧ 1 < (receiving st 2 ir).rx.cnt :=
  ⟨by cases st <;> cases ir <;> decide, h, rfl, rfl, le_refl 1, Nat.lt_succ_self 1⟩

/-- The frame of value 5 (0101) at the pins: START and the data bits low where they are 0, MARK low, STOP high. Its one
synchronizer stage already holds the falling edge. -/
def frameOnPins : State :=
  let lo : Pins := { idlePins with ir := false }
  { receiving .idle 0 false with
    pinQ := [lo, lo, lo, idlePins, idlePins, lo, lo, idlePins, idlePins, lo, lo, idlePins, idlePins, idlePins] }

theorem witness_ReceiverPublishesTheSampledFrame :
    (trace frameOnPins 0).params.Legal ∧ (trace frameOnPins 0).rx.state = .idle ∧ (trace frameOnPins 0).rx.prev = true ∧
    (trace frameOnPins 0).sample.ir = false ∧ Run (trace frameOnPins) 14 ∧
    (∀ k, k < 14 → (trace frameOnPins k).rxEn = true) ∧ (trace frameOnPins 1).sample.ir = false ∧
    (trace frameOnPins 13).sample.ir = true := by
  refine ⟨by decide, rfl, rfl, rfl, trace_run _ (by decide) rfl rfl 14, fun k _ => ?_, rfl, rfl⟩
  rw [State.rxEn, (trace_keeps _ rfl rfl k).2.1]; decide

/-- A publish; a beat at the last fresh age, at the first stale one and below them; a cycle that is no beat. -/
theorem witness_PeerAgesInBeatsAndGoesStale :
    let s (age : Nat) : State := { State.reset with
      ctrl := 0x0001, tick := { div := 999, beatCnt := 0 }, peer := { val := 3, valid := true, age := age } }
    rxPublishes (receiving .stop 1 true) = true ∧ rxPublishes (s 23) = false ∧ beat (s 23) = true ∧
    ageNext (s 23) = 24 ∧ ageNext (s 24) = 25 ∧ 2 * (s 24).params.framePeriod = 24 ∧
    ¬(State.reset.ctrl.getLsbD 0 = true ∧ State.reset.tick.div = State.reset.params.slotCycles - 1) := by decide

theorem witness_StalePeerStaysUntilAPublish (n : Nat) :
    Run (trace State.reset) n ∧ (trace State.reset 0).params.Legal ∧
    (trace State.reset 0).peer = { val := 0, valid := false, age := ageMax (trace State.reset 0).params } ∧
    ∀ k, k < n → rxPublishes (trace State.reset k) = false := by
  refine ⟨trace_run _ (by decide) rfl rfl n, by decide, by decide, fun k _ => ?_⟩
  have : (trace State.reset k).rxEn = false := by rw [State.rxEn, (trace_keeps _ rfl rfl k).2.1]; decide
  simp [rxPublishes, rxFires, this]

end Sys2Proof.Tests
end

section
/-! The cycle as a whole (00_scope.md R8, R14, R15, R17): what a step does with the access of its cycle, what every instruction
leaves to the units, and how a pin level travels along the synchronizer chain. -/

namespace Sys2Proof.Machine

open Sys2Proof

/-! ## The step, by the access of its cycle -/

/-- R244: the constraints are looked at before anything else of the cycle. -/
theorem step_of_not_legal {s : State} (hl : ¬ s.params.Legal) : step s = .refused .illegalParameters :=
  if_neg hl

theorem step_of_no_access {s : State} (hl : s.params.Legal) (hr : s.rst = false) (ha : s.access = none) :
    step s = .next s.taken.cycleNext := by
  have hq : quietStep s = s.taken.cycleNext := by simp [quietStep, hr]
  simp only [step, if_pos hl, ha, hq]

theorem step_of_decoded_access {s : State} {op : HostOp} {i : Instr} (hl : s.params.Legal) (hr : s.rst = false)
    (ha : s.access = some op) (hd : decode op = .ok i) : step s = exec i s.taken := by
  have hi : accessStep i s = exec i s.taken := by simp [accessStep, hr]
  simp only [step, if_pos hl, ha, hd, hi]

/-! ## Every instruction completes -/

/-- No arm of `exec` stops: only a write of OW_CMD branches, on RSV, and both branches answer a next state. -/
theorem exec_completes (i : Instr) (s : State) : ∃ t, exec i s = .next t := by
  cases i
  case wrOwCmd v =>
    by_cases hv : cmdRsv v = 0
    · exact ⟨_, if_pos hv⟩
    · exact ⟨_, if_neg hv⟩
  all_goals exact ⟨_, rfl⟩

/-- R78: of the six cycles an instruction can be, only the write of CTRL touches the enables. -/
theorem exec_ctrl {i : Instr} {s t : State} (h : exec i s = .next t) (hn : ∀ v, i ≠ .wrCtrl v) : t.ctrl = s.ctrl := by
  rcases exec_cases h with ⟨w, -, -, rfl⟩ | ⟨v, hi, rfl⟩ | ⟨v, -, rfl⟩ | ⟨-, -, -, -, rfl⟩ | ⟨-, -, rfl⟩ |
    ⟨op, d, -, -, -, rfl⟩
  case inr.inl => exact absurd hi (hn v)
  all_goals rfl

/-! ## Runs without `rst` -/

/-- What holds in the first cycle of a run and is kept by every step without `rst` holds in each of its cycles. -/
theorem Run.keeps {tr : Nat → State} {n : Nat} (hrun : Run tr n) {P : State → Prop} (h0 : P (tr 0))
    (hstep : ∀ s t, s.rst = false → step s = .next t → P s → P t) : ∀ k, k ≤ n → P (tr k) := by
  intro k
  induction k with
  | zero => exact fun _ => h0
  | succ k ih =>
    intro hk
    obtain ⟨hr, hs⟩ := hrun k hk
    exact hstep _ _ hr hs (ih (Nat.le_of_lt hk))

/-- R15: without `rst` every cycle shifts the synchronizers, whatever the access. -/
theorem step_sync {s t : State} (hr : s.rst = false) (h : step s = .next t) : t.sync = syncNext s := by
  obtain ⟨-, ⟨hr', -⟩ | ⟨-, -, rfl⟩ | ⟨-, op, i, -, -, hi⟩⟩ := step_cases h
  · simp [hr] at hr'
  · rfl
  · obtain ⟨-, -, -, -, -, -, hsync, -⟩ := exec_units hi
    exact hsync

/-! ## The synchronizer chain -/

theorem syncNext_length (s : State) (h : 1 ≤ s.sync.length) : (syncNext s).length = s.sync.length := by
  simp only [syncNext, List.length_cons, List.length_dropLast]
  omega

@[simp] theorem syncNext_getElem?_zero (s : State) : (syncNext s)[0]? = some s.pins := rfl

/-- Each flip-flop but the first takes the level of the one before it. -/
theorem syncNext_getElem?_succ (s : State) {j : Nat} (h : j + 1 < s.sync.length) :
    (syncNext s)[j + 1]? = s.sync[j]? := by
  simp only [syncNext, List.getElem?_cons_succ, List.getElem?_dropLast]
  exact if_pos (by omega)

/-- `sample` reads the last flip-flop. -/
theorem sample_of_getElem? {s : State} {p : Pins} (h : s.sync[s.sync.length - 1]? = some p) : s.sample = p := by
  rw [State.sample, List.getLastD_eq_getLast?, List.getLast?_eq_getElem?, h, Option.getD_some]

theorem Run.sync_length {tr : Nat → State} {n : Nat} (hrun : Run tr n) (h : 1 ≤ (tr 0).sync.length) {k : Nat}
    (hk : k ≤ n) : (tr k).sync.length = (tr 0).sync.length := by
  refine hrun.keeps (P := fun s => s.sync.length = (tr 0).sync.length) rfl (fun s t hr hs ih => ?_) k hk
  rw [step_sync hr hs, syncNext_length s (by omega), ih]

/-- The pin level of cycle `k` stands in flip-flop `j` of the chain `j + 1` cycles later. -/
theorem Run.sync_getElem? {tr : Nat → State} {n : Nat} (hrun : Run tr n) {k j : Nat} (hj : j < (tr 0).sync.length)
    (hn : k + j + 1 ≤ n) : (tr (k + j + 1)).sync[j]? = some (tr k).pins := by
  induction j with
  | zero =>
    obtain ⟨hr, hs⟩ := hrun k hn
    rw [Nat.add_zero, step_sync hr hs, syncNext_getElem?_zero]
  | succ j ih =>
    obtain ⟨hr, hs⟩ := hrun (k + (j + 1)) hn
    have hlen : (tr (k + (j + 1))).sync.length = (tr 0).sync.length := hrun.sync_length (by omega) (by omega)
    rw [step_sync hr hs, syncNext_getElem?_succ _ (by omega)]
    exact ih (by omega) (by omega)

/-! ## The obligations -/

/-- Settles O9: the level of cycle `k` reaches the last flip-flop, number `SYNC_STAGES` - 1, which `sample` reads. -/
theorem sampleIsThePinSyncStagesEarlier : Obligations.SampleIsThePinSyncStagesEarlier := by
  intro tr n hrun hlen hpos k hk
  rw [← hlen] at hpos hk ⊢
  obtain ⟨j, hj⟩ : ∃ j, (tr 0).sync.length = j + 1 := ⟨_, (Nat.sub_add_cancel hpos).symm⟩
  have hlast : (tr (k + j + 1)).sync.length - 1 = j := by
    rw [hrun.sync_length hpos (by omega), hj, Nat.add_sub_cancel]
  rw [hj, ← Nat.add_assoc]
  apply sample_of_getElem?
  rw [hlast]
  exact hrun.sync_getElem? (by omega) (by omega)

/-- Settles O8: `exec` completes, and `exec_units` says what its next state is outside the registers the host writes. -/
theorem everyAccessCompletesInItsCycle : Obligations.EveryAccessCompletesInItsCycle := by
  intro i s
  obtain ⟨t, ht⟩ := exec_completes i s
  obtain ⟨hparams, -, -, -, -, -, hsync, hcycle, hpinQ, hrstQ, hhostQ⟩ := exec_units ht
  exact ⟨t, ht, hparams, hhostQ, hrstQ, hpinQ, hcycle, hsync⟩

/-- Settles O45: both next states have the units of the cycle itself, which depend on the state alone. -/
theorem unitsDoNotDependOnTheAccess : Obligations.UnitsDoNotDependOnTheAccess := by
  intro i j s
  obtain ⟨t, ht⟩ := exec_completes i s
  obtain ⟨u, hu⟩ := exec_completes j s
  obtain ⟨-, ttick, tbtn, ttx, trx, tpeer, tsync, -⟩ := exec_units ht
  obtain ⟨-, utick, ubtn, utx, urx, upeer, usync, -⟩ := exec_units hu
  have how : writesOwCmd i = false → writesOwCmd j = false → t.ow = u.ow := fun hi hj =>
    (exec_ow ht (.inr hi)).trans (exec_ow hu (.inr hj)).symm
  exact ⟨t, u, ht, hu, ttick.trans utick.symm, tbtn.trans ubtn.symm, ttx.trans utx.symm, trx.trans urx.symm,
    tpeer.trans upeer.symm, tsync.trans usync.symm, how, exec_ctrl ht⟩

/-- Settles O4: `State.taken` is the state with this cycle's entries taken off the two scripts. -/
theorem stepRunsTheDecodedInstruction : Obligations.StepRunsTheDecodedInstruction :=
  fun _ hl hr => ⟨fun _ _ ha hd => step_of_decoded_access hl hr ha hd, fun ha => step_of_no_access hl hr ha⟩

/-- Settles O6: R8's constraints guard every branch of `step`, the one with `rst` included. -/
theorem illegalParametersAreRefused : Obligations.IllegalParametersAreRefused :=
  fun _ hl => step_of_not_legal hl

end Sys2Proof.Machine
end

section
/-! The encoding (30_encoding.md R98 to R102): each field of an access's word is read back as it was written. -/

namespace Sys2Proof

/-! ## The fields of a command word and of a descriptor -/

/-- R98: the three fields of a command word built from `DATA`, `RSV` and `OP`. -/
theorem cmdData_append (data : Byte) (rsv : BitVec 5) (op : BitVec 3) : cmdData (data ++ rsv ++ op) = data :=
  (BitVec.extractLsb'_append_eq_of_le (by decide)).trans BitVec.extractLsb'_append_eq_left

theorem cmdRsv_append (data : Byte) (rsv : BitVec 5) (op : BitVec 3) : cmdRsv (data ++ rsv ++ op) = rsv :=
  (BitVec.extractLsb'_append_eq_of_le (by decide)).trans BitVec.extractLsb'_append_eq_right

theorem cmdOpField_append (data : Byte) (rsv : BitVec 5) (op : BitVec 3) : cmdOpField (data ++ rsv ++ op) = op :=
  BitVec.extractLsb'_append_eq_right

theorem descOff_append (w : BitVec 1) (off : BitVec 5) : descOff (w ++ off) = off :=
  BitVec.extractLsb'_append_eq_right

theorem descWrite_append (w : BitVec 1) (off : BitVec 5) : descWrite (w ++ off) = w.getLsbD 0 :=
  BitVec.getLsbD_append

/-! ## Decoding what was encoded, by format -/

theorem decode_encodeCmd (op : OwOp) (data : Byte) : decode (encodeCmd op data) = .ok (instrOfOp op data) := by
  have hword : decodeCmd (data ++ 0#5 ++ opCode op) = instrOfOp op data := by
    rw [decodeCmd, cmdRsv_append, cmdOpField_append, cmdData_append, Machine.opOfCode_opCode]
    exact if_pos rfl
  exact congrArg Except.ok hword

theorem decode_encodeRead (off : BitVec 5) : decode (encodeRead off) = decodeRead off := by
  simp [encodeRead, decode, descWrite_append, descOff_append]

theorem decode_encodeWrite (off : BitVec 5) (v : Word) : decode (encodeWrite off v) = decodeWrite off v := by
  simp [encodeWrite, decode, descWrite_append, descOff_append]

/-! ## The reserved offsets -/

/-- R84: the four offsets of a well-formed reserved access. -/
theorem reservedOffset_cases {off : BitVec 5} (h : reservedOffset off = true) :
    off = 0x18#5 ∨ off = 0x1A#5 ∨ off = 0x1C#5 ∨ off = 0x1E#5 := by
  simpa [reservedOffset, or_assoc] using h

theorem decodeRead_reserved {off : BitVec 5} (h : reservedOffset off = true) : decodeRead off = .ok (.rdRsvd off) := by
  obtain rfl | rfl | rfl | rfl := reservedOffset_cases h <;> rfl

theorem decodeWrite_reserved {off : BitVec 5} (h : reservedOffset off = true) (v : Word) :
    decodeWrite off v = .ok (.wrRsvd off v) := by
  obtain rfl | rfl | rfl | rfl := reservedOffset_cases h <;> rfl

/-! ## The obligations -/

/-- Settles O1: by format, the commands, the reads and the writes; the offset of a register picks its own row, and a
well-formed reserved offset is one of the four. -/
theorem decodeOfEncodeIsTheInstruction : Obligations.DecodeOfEncodeIsTheInstruction := by
  intro i hi
  cases i
  case nop d => exact decode_encodeCmd .nop d
  case reset d => exact decode_encodeCmd .reset d
  case writeBit d => exact decode_encodeCmd .writeBit d
  case readBit d => exact decode_encodeCmd .readBit d
  case writeByte d => exact decode_encodeCmd .writeByte d
  case readByte d => exact decode_encodeCmd .readByte d
  case driveHigh d => exact decode_encodeCmd .driveHigh d
  case release d => exact decode_encodeCmd .release d
  case rdRsvd off => exact (decode_encodeRead off).trans (decodeRead_reserved hi)
  case wrRsvd off v => exact (decode_encodeWrite off v).trans (decodeWrite_reserved hi v)
  case rdCtrl | rdIfg | rdOwCmd | rdOwStat | rdOwRdata | rdTxStat | rdRxStat | rdPeer | rdBeatCnt | rdFrame | rdBtnStat
      | rdHold =>
    exact decode_encodeRead _
  case wrCtrl v | wrIfg v | wrOwCmd v | wrOwStat v | wrOwRdata v | wrTxStat v | wrRxStat v | wrPeer v | wrBeatCnt v
      | wrFrame v | wrBtnStat v | wrHold v =>
    exact decode_encodeWrite _ v

/-- Settles O3: the twelve words are closed terms, which the decoder evaluates. -/
theorem writtenOutWordsDecode : Obligations.WrittenOutWordsDecode := by
  unfold Obligations.WrittenOutWordsDecode
  decide

end Sys2Proof
end

section
/-! The invariant of the block's state (10_state.md R27 to R47, 40_onewire.md R121, 43_ir_rx.md R185): the reset state meets it,
each unit's rules keep its own part of it, and so does every step. -/

namespace Sys2Proof.Machine

open Sys2Proof

/-! ## Legal parameters, and counters -/

/-- R8, R115: every phase of an operation lasts at least one cycle. -/
theorem phaseDur_pos {p : Params} (hl : p.Legal) (b : Bool) {ph : OwPhase} (hph : ph ≠ .none) : 1 ≤ phaseDur p b ph := by
  have hd : ∀ us, 1 ≤ us → 1 ≤ durCycles p us := fun us hus => Nat.mul_pos hus hl.1
  obtain ⟨-, -, hrstl, hmsp, hpres, hw1l, hw1r, hw0l, hw0r, hrl, hrs, hrrest, -⟩ := hl
  cases ph with
  | none => exact absurd rfl hph
  | rstLow => exact hd _ (by omega)
  | rstRec => exact hd _ hmsp
  | rstPres => exact hd _ hpres
  | wrLow => cases b; exacts [hd _ hw0l, hd _ hw1l]
  | wrRel => cases b; exacts [hd _ hw0r, hd _ hw1r]
  | rdLow => exact hd _ hrl
  | rdSamp => exact hd _ hrs
  | rdRest => exact hd _ hrrest

theorem decr_le (x : Word) : (decr x).toNat ≤ x.toNat := by
  unfold decr
  split
  · simp
  · bv_omega

/-- A window of R8 fits the 16 bits of its counter. -/
theorem toNat_ofNat_window {n : Nat} (h : n ≤ 65535) : (BitVec.ofNat 16 n).toNat = n :=
  Nat.mod_eq_of_lt (by omega)

/-! ## The one-wire master -/

/-- An operation running in a phase of its own, which it has just entered, meets the invariant. -/
theorem enterPhase_inv {p : Params} (hl : p.Legal) {ow : OneWire} {ph : OwPhase} (hbusy : ow.busy = true)
    (hph : phaseOfOp ow.op ph = true) (hbit : ow.op = .writeBit ∨ ow.op = .readBit ∨ ow.op = .reset → ow.bit = 0) :
    OneWireInv p (enterPhase p ph ow) where
  idle_phase h := absurd (hbusy.symm.trans h) (by decide)
  busy_phase _ := hph
  busy_cnt _ := ⟨phaseDur_pos hl _ (by rintro rfl; cases hop : ow.op <;> simp [hop, phaseOfOp] at hph), le_refl _⟩
  busy_role _ := rfl
  idle_role h := absurd (hbusy.symm.trans h) (by decide)
  single_bit _ := hbit

theorem finishOp_inv (p : Params) (ow : OneWire) : OneWireInv p (finishOp ow) where
  idle_phase _ := ⟨rfl, rfl⟩
  busy_phase h := absurd h (by simp [finishOp])
  busy_cnt h := absurd h (by simp [finishOp])
  busy_role h := absurd h (by simp [finishOp])
  idle_role _ := rfl
  single_bit h := absurd h (by simp [finishOp])

/-- R116: a phase is followed by a phase of the same operation. -/
theorem phaseOfOp_next {op : OwOp} :
    (phaseOfOp op .rstLow = true → phaseOfOp op .rstRec = true) ∧
    (phaseOfOp op .rstRec = true → phaseOfOp op .rstPres = true) ∧
    (phaseOfOp op .wrLow = true → phaseOfOp op .wrRel = true) ∧
    (phaseOfOp op .rdLow = true → phaseOfOp op .rdSamp = true) ∧
    (phaseOfOp op .rdSamp = true → phaseOfOp op .rdRest = true) := by
  cases op <;> decide

theorem moreBits_op {ow : OneWire} {op : OwOp} (h : moreBits ow op = true) : ow.op = op := by
  simp only [moreBits, Bool.and_eq_true, beq_iff_eq] at h
  exact h.1

/-- R134, R135: only a byte operation goes on to another bit. -/
theorem nextBit_inv {p : Params} (hl : p.Legal) {ow : OneWire} (hbusy : ow.busy = true) {op : OwOp} {ph : OwPhase}
    (hm : moreBits ow op = true) (hph : phaseOfOp op ph = true) (hbyte : ¬(op = .writeBit ∨ op = .readBit ∨ op = .reset)) :
    OneWireInv p (enterPhase p ph { ow with bit := ow.bit + 1 }) := by
  obtain rfl := moreBits_op hm
  exact enterPhase_inv hl hbusy hph fun h => absurd h hbyte

/-- R116, R134, R135: the end of a phase enters a phase of the same operation, or finishes it. -/
theorem endAction_keeps_inv {p : Params} (hl : p.Legal) {ow : OneWire} (h : OneWireInv p ow) (hbusy : ow.busy = true)
    (line : Bool) : OneWireInv p (endAction p line ow) := by
  have hph := h.busy_phase hbusy
  have hbit := h.single_bit hbusy
  obtain ⟨rstRec, rstPres, wrRel, rdSamp, rdRest⟩ := phaseOfOp_next (op := ow.op)
  unfold endAction
  cases hp : ow.phase <;> rw [hp] at hph <;> dsimp only
  case none => exact h
  case rstLow => exact enterPhase_inv hl hbusy (rstRec hph) hbit
  case rstRec => exact enterPhase_inv hl hbusy (rstPres hph) hbit
  case rstPres => exact finishOp_inv p _
  case wrLow => exact enterPhase_inv hl hbusy (wrRel hph) hbit
  case wrRel =>
    split
    · rename_i hm
      exact nextBit_inv hl hbusy hm rfl (by decide)
    · exact finishOp_inv p _
  case rdLow => exact enterPhase_inv hl hbusy (rdSamp hph) hbit
  case rdSamp => exact enterPhase_inv hl hbusy (rdRest hph) hbit
  case rdRest =>
    split
    · rename_i hm
      exact nextBit_inv hl hbusy hm rfl (by decide)
    · exact finishOp_inv p _

theorem owNext_keeps_inv {p : Params} (hl : p.Legal) {ow : OneWire} (h : OneWireInv p ow) (line : Bool) :
    OneWireInv p (owNext p line ow) := by
  cases hbusy : ow.busy
  · rwa [owNext_idle p line ow hbusy]
  · by_cases hcnt : 1 < ow.cnt
    · obtain ⟨-, hmax⟩ := h.busy_cnt hbusy
      rw [owNext_counting p line ow hbusy hcnt]
      exact { h with
        idle_phase := fun h' => absurd (hbusy.symm.trans h') (by decide)
        busy_cnt := fun _ => ⟨Nat.le_sub_one_of_lt hcnt, (Nat.sub_le _ _).trans hmax⟩ }
    · rw [owNext_last p line ow hbusy (Nat.not_lt.mp hcnt)]
      exact endAction_keeps_inv hl h hbusy line

/-- R117: exactly the timed operations have a first phase of their own. -/
theorem phaseOfOp_firstPhase (op : OwOp) : phaseOfOp op (firstPhase op) = isTimed op := by cases op <;> rfl

/-- R117: a timed operation starts at bit 0 of its first phase. -/
theorem acceptTimed_inv {p : Params} (hl : p.Legal) {op : OwOp} (hop : isTimed op = true) (data : Byte)
    (ow : OneWire) : OneWireInv p (acceptTimed p op data ow) :=
  enterPhase_inv hl rfl ((phaseOfOp_firstPhase op).trans hop) fun _ => rfl

/-- R137, R138: the two line commands change the idle line with its role, and the master stays idle. -/
theorem idleLine_keeps_inv {p : Params} {ow : OneWire} (h : OneWireInv p ow) (hidle : ow.busy = false) (high : Bool)
    (op : OwOp) : OneWireInv p { ow with idleHigh := high, role := idleRole high, op := op } where
  idle_phase := h.idle_phase
  busy_phase hb := absurd (hidle.symm.trans hb) (by decide)
  busy_cnt := h.busy_cnt
  busy_role hb := absurd (hidle.symm.trans hb) (by decide)
  idle_role _ := rfl
  single_bit hb := absurd (hidle.symm.trans hb) (by decide)

theorem acceptOp_keeps_inv {p : Params} (hl : p.Legal) {ow : OneWire} (h : OneWireInv p ow) (hidle : ow.busy = false)
    (op : OwOp) (data : Byte) : OneWireInv p (acceptOp p op data ow) := by
  cases op with
  | nop => exact h
  | reset | writeBit | readBit | writeByte | readByte => exact acceptTimed_inv hl rfl data ow
  | driveHigh => exact idleLine_keeps_inv h hidle true .driveHigh
  | release => exact idleLine_keeps_inv h hidle false .release

/-! ## The other units -/

theorem div_range_tickNext {s : State} (h : s.Inv) : (tickNext s).div < s.params.slotCycles := by
  have hdiv := h.div_range
  simp only [tickNext, beat]
  by_cases hen : s.tickEn = true
  · by_cases hlast : s.tick.div = s.params.slotCycles - 1
    · simpa [hen, hlast] using Nat.zero_lt_of_lt hdiv
    · simp only [hen, Bool.true_and, beq_iff_eq, hlast, if_true, if_false]
      omega
  · simpa [hen] using Nat.zero_lt_of_lt hdiv

theorem quadGet_quadOf {α : Type} (f : Fin 4 → α) (k : Fin 4) : quadGet (quadOf f) k = f k := by
  revert k
  simp [Fin.forall_fin_succ, quadGet, quadOf]

theorem dbDecayed_le (s : State) (k : Fin 4) : (dbDecayed s k).toNat ≤ (quadGet s.btn.db k).toNat := by
  unfold dbDecayed
  split
  · exact decr_le _
  · exact le_refl _

theorem holdDecayed_le (s : State) : (holdDecayed s).toNat ≤ s.btn.hold.toNat := by
  unfold holdDecayed
  split
  · exact decr_le _
  · exact le_refl _

theorem honouredIdentity_le (s : State) : (honouredIdentity s).toNat ≤ 4 := by
  unfold honouredIdentity
  split_ifs <;> decide

theorem localDecayed_cases (s : State) : localDecayed s = 0 ∨ localDecayed s = s.btn.localVal := by
  unfold localDecayed
  split_ifs <;> simp

/-- R163: the decayed value is 0 where the decayed counter is. -/
theorem localDecayed_held {s : State} (h : s.btn.localVal ≠ 0 → 1 ≤ s.btn.hold.toNat) (hne : localDecayed s ≠ 0) :
    1 ≤ (holdDecayed s).toNat := by
  cases hb : beat s
  · simp only [localDecayed, holdDecayed, hb] at hne ⊢
    exact h hne
  · have hz : holdDecayed s ≠ 0 := fun hz => hne (by simp [localDecayed, hb, hz])
    bv_omega

theorem buttonsNext_keeps_inv {s : State} (hl : s.params.Legal) (h : ButtonsInv s.params s.btn) :
    ButtonsInv s.params (buttonsNext s) := by
  obtain ⟨-, -, -, -, -, -, -, -, -, -, -, -, -, -, -, -, hdb, hold1, hhold, -⟩ := hl
  constructor
  case db_range =>
    intro k
    simp only [buttonsNext, quadGet_quadOf]
    split
    · exact (toNat_ofNat_window hdb).le
    · exact (dbDecayed_le s k).trans (h.db_range k)
  all_goals simp only [buttonsNext]; cases anyHonoured s <;> simp only [if_true, Bool.false_eq_true, if_false]
  case local_range.false => obtain hz | hz := localDecayed_cases s <;> simp [hz, h.local_range]
  case local_range.true => exact honouredIdentity_le s
  case hold_range.false => exact (holdDecayed_le s).trans h.hold_range
  case hold_range.true => exact (toNat_ofNat_window hhold).le
  case local_held.false => exact localDecayed_held h.local_held
  case local_held.true => exact fun _ => hold1.trans (toNat_ofNat_window hhold).ge

theorem carrierNext_range {s : State} (hl : s.params.Legal) (h : s.tx.carCnt < s.params.carrierHalfCycles) :
    (carrierNext s).1 < s.params.carrierHalfCycles := by
  unfold carrierNext
  split_ifs <;> simp only <;> omega

theorem snapNext_range {s : State} (h : s.Inv) : (snapNext s).toNat ≤ 4 := by
  unfold snapNext
  split
  · exact h.btn.local_range
  · exact h.tx.snap_range

/-- R171: a frame begins only with a value that is not the idle value, and goes on with the snapshot it began with. -/
theorem snapNext_ne_zero {s : State} (h : s.Inv) (ha : frameActiveNext s = true) : snapNext s ≠ 0 := by
  unfold frameActiveNext at ha
  unfold snapNext
  split at ha <;> rename_i hq
  · simp_all
  · rw [if_neg hq]
    exact h.tx.frame_value ha

theorem txNext_keeps_inv {s : State} (h : s.Inv) : TxInv s.params (txNext s) := by
  have hcar := carrierNext_range h.legal h.tx.car_range
  have hpos : 0 < s.params.framePeriod := Nat.zero_lt_of_lt h.tx.slot_range
  unfold txNext
  split
  · split
    · exact ⟨Nat.mod_lt _ hpos, hcar, snapNext_range h, snapNext_ne_zero h, rfl⟩
    · exact { h.tx with car_range := hcar }
  · exact ⟨Nat.sub_one_lt_of_lt hpos, hcar, h.tx.snap_range, nofun, rfl⟩

/-- A receiver with a slot's time ahead of it. -/
theorem rxInv_of_slot {p : Params} (hl : p.Legal) {rx : Rx} (hs : rx.state ≠ .idle) (hc : rx.cnt = p.rxSlotCycles) :
    RxInv p rx where
  idle_cnt h := absurd h hs
  busy_cnt _ := by
    unfold Params.Legal at hl
    omega

/-- R188 to R195: a firing goes on with a slot's time, or ends the frame in IDLE. -/
theorem rxFire_inv {p : Params} (hl : p.Legal) (r : Bool) {rx : Rx} (hs : rx.state ≠ .idle) : RxInv p (rxFire p r rx) := by
  unfold rxFire
  split
  case h_1 hidle => exact absurd hidle hs
  case h_2 =>
    cases r
    · exact rxInv_of_slot hl nofun rfl
    · exact ⟨fun _ => rfl, fun h => absurd rfl h⟩
  case h_8 => exact ⟨fun _ => rfl, fun h => absurd rfl h⟩
  all_goals exact rxInv_of_slot hl nofun rfl

theorem rxNext_keeps_inv {s : State} (hl : s.params.Legal) (h : RxInv s.params s.rx) : RxInv s.params (rxNext s) := by
  have hhalf : 1 ≤ s.params.rxHalfCycles := by
    unfold Params.Legal at hl
    omega
  unfold rxNext
  split_ifs with hen hidle hfall hcnt
  · exact ⟨nofun, fun _ => ⟨hhalf, Nat.le_max_left _ _⟩⟩
  · exact { h with }
  · obtain ⟨-, hmax⟩ := h.busy_cnt hidle
    exact ⟨fun hi => absurd hi hidle, fun _ => ⟨Nat.le_sub_one_of_lt hcnt, (Nat.sub_le _ _).trans hmax⟩⟩
  · exact rxFire_inv hl _ hidle
  · exact ⟨fun _ => rfl, fun hi => absurd rfl hi⟩

theorem peerNext_keeps_inv {s : State} (h : PeerInv s.params s.peer) : PeerInv s.params (peerNext s) := by
  have hage : ageNext s ≤ ageMax s.params := Nat.min_le_right _ _
  unfold peerNext
  split
  · exact ⟨Nat.zero_le _, nofun, nofun⟩
  · split
    · unfold peerBeat
      split
      · exact ⟨hage, fun _ => ⟨rfl, rfl⟩, fun _ => rfl⟩
      · rename_i hfresh
        exact ⟨hage, fun hs => absurd hs hfresh, h.no_state⟩
    · exact h

/-! ## CTRL and IFG -/

/-- No unit raises a reserved bit. -/
theorem raisedByUnits_reserved (s : State) : raisedByUnits s &&& ~~~0x003F#16 = 0 := by
  refine BitVec.eq_of_getLsbD_eq fun k hk => ?_
  by_cases hlow : k < 6
  · interval_cases k <;> simp
  · simp [raisedByUnits_high s k (Nat.le_of_not_lt hlow)]

theorem raiseFlags_reserved {ifg set : Word} (hi : ifg &&& ~~~0x003F#16 = 0) (hs : set &&& ~~~0x003F#16 = 0) :
    raiseFlags ifg set &&& ~~~0x003F#16 = 0 := by
  rw [raiseFlags, BitVec.and_or_distrib_right, hi, hs]
  rfl

theorem and_mask_reserved (x m : Word) : x &&& m &&& ~~~m = 0 := by
  rw [BitVec.and_assoc, BitVec.and_not_self]
  exact BitVec.and_zero

/-! ## The cycle -/

theorem cycleNext_keeps_inv {s : State} (h : s.Inv) : s.cycleNext.Inv where
  legal := h.legal
  ctrl_reserved := h.ctrl_reserved
  ifg_reserved := raiseFlags_reserved h.ifg_reserved (raisedByUnits_reserved s)
  ow := owNext_keeps_inv h.legal h.ow s.sample.ow
  div_range := div_range_tickNext h
  btn := buttonsNext_keeps_inv h.legal h.btn
  tx := txNext_keeps_inv h
  rx := rxNext_keeps_inv h.legal h.rx
  peer := peerNext_keeps_inv h.peer
  sync_stages := by
    have hstages : s.sync.length = s.params.syncStages := h.sync_stages
    have hpos : 1 ≤ s.params.syncStages := h.legal.2.1
    exact (syncNext_length s (by omega)).trans hstages

/-- Each of the six cycles an instruction can be writes at most one register on top of the units, or the one-wire master. -/
theorem exec_keeps_inv {i : Instr} {s t : State} (h : s.Inv) (hi : exec i s = .next t) : t.Inv := by
  have hc := cycleNext_keeps_inv h
  rcases exec_cases hi with ⟨w, -, -, rfl⟩ | ⟨v, -, rfl⟩ | ⟨v, -, rfl⟩ | ⟨-, -, -, -, rfl⟩ | ⟨-, -, rfl⟩ |
    ⟨op, d, -, -, hidle, rfl⟩
  · exact { hc with }
  · exact { hc with ctrl_reserved := and_mask_reserved v 0x0F0F }
  · exact { hc with ifg_reserved := and_mask_reserved _ 0x003F }
  · exact hc
  · have herr : (raisedByUnits s ||| eventMask .owCmdErr) &&& ~~~0x003F#16 = 0 :=
      raiseFlags_reserved (raisedByUnits_reserved s) (by decide)
    exact { hc with ifg_reserved := raiseFlags_reserved h.ifg_reserved herr }
  · exact { hc with ow := acceptOp_keeps_inv h.legal h.ow hidle op d }

/-! ## The obligations -/

/-- Settles O14: the master, the receiver and the frame gate are idle, and the peer state is stale at its oldest age. -/
theorem resetStateMeetsTheInvariant : Obligations.ResetStateMeetsTheInvariant := by
  intro p hl
  have hranges : 0 < p.slotCycles ∧ p.framePeriod - 1 < p.framePeriod ∧ 0 < p.carrierHalfCycles := by
    unfold Params.Legal at hl
    omega
  obtain ⟨hslot, hframe, hcar⟩ := hranges
  exact
    { legal := hl
      ctrl_reserved := BitVec.zero_and
      ifg_reserved := BitVec.zero_and
      ow := finishOp_inv p (State.resetOf p).ow
      div_range := hslot
      btn := ⟨fun k => by fin_cases k <;> exact Nat.zero_le _, Nat.zero_le _, Nat.zero_le _, fun h => absurd rfl h⟩
      tx := ⟨hframe, hcar, Nat.zero_le _, nofun, rfl⟩
      rx := ⟨fun _ => rfl, fun h => absurd rfl h⟩
      peer := ⟨le_refl _, fun _ => ⟨rfl, rfl⟩, fun _ => rfl⟩
      sync_stages := List.length_replicate }

/-- Settles O15: with `rst` the next state is the reset state; otherwise it is a cycle without an access, or that of an
instruction, from a state that differs from `s` in the scripts alone. -/
theorem everyStepKeepsTheInvariant : Obligations.EveryStepKeepsTheInvariant := by
  intro s t h ht
  have htaken : s.taken.Inv := { h with }
  obtain ⟨hl, ⟨-, r, rfl⟩ | ⟨-, -, rfl⟩ | ⟨-, op, i, -, -, hi⟩⟩ := step_cases ht
  · exact { resetStateMeetsTheInvariant s.params hl with }
  · exact cycleNext_keeps_inv htaken
  · exact exec_keeps_inv htaken hi

end Sys2Proof.Machine
end

section
/-! The registers (10_state.md R49 to R68): the fields of the word that a read gives, and what a write makes. A read of a register
is `readCycle` of its word, and the write of a read-only register is the plain cycle, both by the instruction's meaning. -/

namespace Sys2Proof.Machine

open Sys2Proof

theorem getLsbD_zero_bit1 (b : Bool) : (bit1 b).getLsbD 0 = b := by cases b <;> rfl

/-! ## CTRL and IFG -/

/-- R53, R55: the implemented bits of CTRL are 3:0 and 11:8. -/
theorem getLsbD_ctrlMask {k : Nat} (hk : k < 16) : ctrlMask.getLsbD k = decide (k < 4 ∨ 8 ≤ k ∧ k < 12) := by
  revert k
  decide

/-- R58: the implemented bits of IFG are 5:0. -/
theorem getLsbD_ifgMask (k : Nat) : ifgMask.getLsbD k = decide (k < 6) := by
  by_cases hk : k < 16
  · revert k
    decide
  · rw [BitVec.getLsbD_of_ge _ _ (Nat.le_of_not_lt hk)]
    simp only [false_eq_decide_iff]
    omega

theorem getLsbD_and_ctrlMask (x : Word) {k : Nat} (hk : k < 16) :
    (x &&& ctrlMask).getLsbD k = (x.getLsbD k && decide (k < 4 ∨ 8 ≤ k ∧ k < 12)) := by
  rw [BitVec.getLsbD_and, getLsbD_ctrlMask hk]

/-- R79, bit by bit: the bits above 5 stay 0, set wins over clear, and a 0 bit leaves its flag. -/
theorem getLsbD_clearFlags (ifg v set : Word) (k : Nat) :
    (clearFlags ifg v set).getLsbD k = (decide (k < 6) && (ifg.getLsbD k && !v.getLsbD k || set.getLsbD k)) := by
  have hmask : BitVec.getLsbD (0x003F : Word) k = decide (k < 6) := getLsbD_ifgMask k
  by_cases hk : k < 6
  · have hk16 : k < 16 := by omega
    simp only [clearFlags, BitVec.getLsbD_and, BitVec.getLsbD_or, BitVec.getLsbD_not, hmask, hk, hk16, decide_true,
      Bool.and_true, Bool.true_and]
  · simp only [clearFlags, BitVec.getLsbD_and, hmask, hk, decide_false, Bool.and_false, Bool.false_and]

/-- Settles O16: the implemented bits of the mask, for the read and for the write, whose bits 3:0 are the enables. -/
theorem ctrlRegister : Obligations.CtrlRegister := by
  intro s
  refine ⟨⟨readCtrl s, rfl, fun k => getLsbD_and_ctrlMask s.ctrl⟩,
    fun v => ⟨ctrlCycle s v, rfl, rfl, fun k => getLsbD_and_ctrlMask v, ?_⟩⟩
  have enable : ∀ k, k < 4 → (ctrlCycle s v).ctrl.getLsbD k = v.getLsbD k := fun k hk => by
    have hbit := getLsbD_and_ctrlMask v (k := k) (by omega)
    rwa [decide_eq_true (.inl hk), Bool.and_true] at hbit
  exact ⟨enable 0 (by decide), enable 1 (by decide), enable 2 (by decide), enable 3 (by decide)⟩

/-- Settles O17: the word of the write is R79's own formula, and its bits are those of `clearFlags`. -/
theorem ifgRegister : Obligations.IfgRegister := by
  intro s
  refine ⟨⟨readIfg s, rfl, fun k _ => ?_⟩, fun v => ⟨clearFlags s.ifg v (raisedByUnits s), rfl, rfl, ?_⟩⟩
  · rw [readIfg, BitVec.getLsbD_and, getLsbD_ifgMask]
  · exact getLsbD_clearFlags s.ifg v (raisedByUnits s)

/-! ## OW_STAT and OW_RDATA -/

theorem readOwStat_busy (s : State) : (readOwStat s).getLsbD 0 = s.ow.busy := by
  simp only [readOwStat, BitVec.getLsbD_append]
  exact getLsbD_zero_bit1 s.ow.busy

theorem readOwStat_role (s : State) : (readOwStat s).extractLsb' 1 2 = roleCode s.ow.role := by
  simp (disch := decide) only [readOwStat, BitVec.extractLsb'_append_eq_of_le, BitVec.extractLsb'_append_eq_of_add_le,
    BitVec.extractLsb'_eq_self, Nat.reduceSub]

theorem readOwStat_idleHigh (s : State) : (readOwStat s).getLsbD 3 = s.ow.idleHigh := by
  simp only [readOwStat, BitVec.getLsbD_append]
  exact getLsbD_zero_bit1 s.ow.idleHigh

theorem readOwStat_result (s : State) : (readOwStat s).extractLsb' 4 2 = resultCode s.ow.result := by
  simp (disch := decide) only [readOwStat, BitVec.extractLsb'_append_eq_of_le, BitVec.extractLsb'_append_eq_of_add_le,
    BitVec.extractLsb'_eq_self, Nat.reduceSub]

theorem readOwStat_line (s : State) : (readOwStat s).getLsbD 6 = s.sample.ow := by
  simp only [readOwStat, BitVec.getLsbD_append]
  exact getLsbD_zero_bit1 s.sample.ow

theorem readOwStat_op (s : State) : (readOwStat s).extractLsb' 8 3 = opCode s.ow.op := by
  simp (disch := decide) only [readOwStat, BitVec.extractLsb'_append_eq_of_le, BitVec.extractLsb'_append_eq_of_add_le,
    BitVec.extractLsb'_eq_self, Nat.reduceSub]

theorem readOwStat_bit (s : State) : (readOwStat s).extractLsb' 11 3 = s.ow.bit := by
  simp (disch := decide) only [readOwStat, BitVec.extractLsb'_append_eq_of_le, BitVec.extractLsb'_append_eq_of_add_le,
    BitVec.extractLsb'_eq_self, Nat.reduceSub]

theorem readOwStat_reserved (s : State) : (readOwStat s).extractLsb' 14 2 = 0 := by
  simp (disch := decide) only [readOwStat, BitVec.extractLsb'_append_eq_of_le]
  rfl

/-- R60, R229: after reset only LINE can be 1. -/
theorem readOwStat_resetOf (p : Params) (l : List Pins) :
    readOwStat { State.resetOf p with sync := l } =
      if ({ State.resetOf p with sync := l } : State).sample.ow then 0x0040 else 0x0000 := by
  have hword : ∀ line, (0#2 ++ 0#3 ++ 0#3 ++ 0#1 ++ bit1 line ++ 0#2 ++ 0#1 ++ 0#2 ++ 0#1 : Word) =
      if line then 0x0040 else 0x0000 := by decide
  exact hword _

/-- Settles O18: each field of the word, with the number of its value. -/
theorem owStatRegister : Obligations.OwStatRegister := by
  refine ⟨fun s => ⟨⟨readOwStat s, rfl, ?_⟩, fun _ => rfl⟩, readOwStat_resetOf⟩
  simp +contextual only [readOwStat_busy, readOwStat_role, readOwStat_idleHigh, readOwStat_result, readOwStat_line,
    readOwStat_op, readOwStat_bit, readOwStat_reserved, roleCode, resultCode, opCode, implies_true, and_self]

/-- Settles O19. -/
theorem owRdataRegister : Obligations.OwRdataRegister :=
  ⟨fun s => ⟨⟨readOwRdata s, rfl, BitVec.extractLsb'_append_eq_right, BitVec.extractLsb'_append_eq_left⟩, fun _ => rfl⟩,
    fun _ => BitVec.zero_append_zero⟩

/-! ## TX_STAT and RX_STAT -/

theorem readTxStat_localVal (s : State) : (readTxStat s).extractLsb' 0 4 = s.btn.localVal :=
  BitVec.extractLsb'_append_eq_right

theorem readTxStat_snap (s : State) : (readTxStat s).extractLsb' 4 4 = s.tx.snap :=
  (BitVec.extractLsb'_append_eq_of_le (by decide)).trans BitVec.extractLsb'_append_eq_right

theorem readTxStat_transmit (s : State) : (readTxStat s).getLsbD 8 = s.tx.transmit := by
  simp only [readTxStat, BitVec.getLsbD_append]
  exact getLsbD_zero_bit1 s.tx.transmit

theorem readTxStat_frameActive (s : State) : (readTxStat s).getLsbD 9 = s.tx.frameActive := by
  simp only [readTxStat, BitVec.getLsbD_append]
  exact getLsbD_zero_bit1 s.tx.frameActive

theorem readTxStat_emit (s : State) : (readTxStat s).getLsbD 10 = s.irTxO := by
  simp only [readTxStat, BitVec.getLsbD_append]
  exact getLsbD_zero_bit1 s.irTxO

theorem readTxStat_reserved (s : State) : (readTxStat s).extractLsb' 11 5 = 0 := by
  simp (disch := decide) only [readTxStat, BitVec.extractLsb'_append_eq_of_le]
  rfl

theorem readTxStat_resetOf (p : Params) : readTxStat (State.resetOf p) = 0x0000 := by
  have hword : (0#5 ++ 0#1 ++ 0#1 ++ 0#1 ++ 0#4 ++ 0#4 : Word) = 0x0000 := by decide
  exact hword

/-- Settles O20. -/
theorem txStatRegister : Obligations.TxStatRegister :=
  ⟨fun s => ⟨⟨readTxStat s, rfl, readTxStat_localVal s, readTxStat_snap s, readTxStat_transmit s, readTxStat_frameActive s,
    readTxStat_emit s, readTxStat_reserved s⟩, fun _ => rfl⟩, readTxStat_resetOf⟩

theorem readRxStat_state (s : State) : (readRxStat s).extractLsb' 0 3 = rxStateCode s.rx.state :=
  BitVec.extractLsb'_append_eq_right

theorem readRxStat_gap (s : State) : (readRxStat s).getLsbD 3 = false := by
  simp only [readRxStat, BitVec.getLsbD_append]
  rfl

theorem readRxStat_acc (s : State) : (readRxStat s).extractLsb' 4 4 = s.rx.acc := by
  simp (disch := decide) only [readRxStat, BitVec.extractLsb'_append_eq_of_le, BitVec.extractLsb'_append_eq_of_add_le,
    BitVec.extractLsb'_eq_self, Nat.reduceSub]

theorem readRxStat_line (s : State) : (readRxStat s).getLsbD 8 = s.sample.ir := by
  simp only [readRxStat, BitVec.getLsbD_append]
  exact getLsbD_zero_bit1 s.sample.ir

theorem readRxStat_reserved (s : State) : (readRxStat s).extractLsb' 9 7 = 0 := by
  simp (disch := decide) only [readRxStat, BitVec.extractLsb'_append_eq_of_le]
  rfl

/-- R63, R229: after reset only LINE can be 1. -/
theorem readRxStat_resetOf (p : Params) (l : List Pins) :
    readRxStat { State.resetOf p with sync := l } =
      if ({ State.resetOf p with sync := l } : State).sample.ir then 0x0100 else 0x0000 := by
  have hword : ∀ line, (0#7 ++ bit1 line ++ 0#4 ++ 0#1 ++ 0#3 : Word) = if line then 0x0100 else 0x0000 := by decide
  exact hword _

/-- Settles O21: each field of the word, with the number of its value. -/
theorem rxStatRegister : Obligations.RxStatRegister := by
  refine ⟨fun s => ⟨⟨readRxStat s, rfl, ?_⟩, fun _ => rfl⟩, readRxStat_resetOf⟩
  simp +contextual only [readRxStat_state, readRxStat_gap, readRxStat_acc, readRxStat_line, readRxStat_reserved, rxStateCode,
    implies_true, and_self]

/-! ## PEER, BEAT_CNT and FRAME -/

/-- R8, R64: the age of a legal block fits 8 bits. -/
theorem ageMax_lt {p : Params} (hl : p.Legal) : ageMax p < 256 := by
  unfold Params.Legal at hl
  unfold ageMax silence
  omega

theorem readPeer_val (s : State) : (readPeer s).extractLsb' 0 4 = s.peer.val :=
  BitVec.extractLsb'_append_eq_right

theorem readPeer_valid (s : State) : (readPeer s).getLsbD 4 = s.peer.valid := by
  simp only [readPeer, BitVec.getLsbD_append]
  exact getLsbD_zero_bit1 s.peer.valid

theorem readPeer_reserved (s : State) : (readPeer s).extractLsb' 5 3 = 0 := by
  simp (disch := decide) only [readPeer, BitVec.extractLsb'_append_eq_of_le, BitVec.extractLsb'_append_eq_of_add_le]
  rfl

theorem readPeer_age (s : State) : (readPeer s).extractLsb' 8 8 = BitVec.ofNat 8 s.peer.age := by
  simp (disch := decide) only [readPeer, BitVec.extractLsb'_append_eq_of_le, BitVec.extractLsb'_eq_self, Nat.reduceSub]

theorem readPeer_resetOf (p : Params) : readPeer (State.resetOf p) = BitVec.ofNat 8 (ageMax p) ++ 0#8 := by
  have hword : ∀ age : Byte, (age ++ 0#3 ++ 0#1 ++ 0#4 : Word) = age ++ 0#8 := fun age => BitVec.eq_of_toNat_eq <| by
    simp only [BitVec.toNat_append, BitVec.toNat_zero, Nat.or_zero, ← Nat.shiftLeft_add]
  exact hword _

/-- Settles O22: the age is below 256, so its 8 bits are all of it. -/
theorem peerRegister : Obligations.PeerRegister := by
  refine ⟨fun s => ⟨⟨readPeer s, rfl, readPeer_val s, readPeer_valid s, readPeer_reserved s, fun hl hage => ?_⟩, fun _ => rfl⟩,
    readPeer_resetOf, rfl⟩
  rw [readPeer_age]
  exact Nat.mod_eq_of_lt (hage.trans_lt (ageMax_lt hl))

/-- Settles O23. -/
theorem beatCntRegister : Obligations.BeatCntRegister :=
  ⟨fun _ => ⟨rfl, fun _ => rfl⟩, fun _ => rfl⟩

/-- R8, R66: the slot of a legal block fits 8 bits. -/
theorem toNat_slot {p : Params} (hl : p.Legal) {n : Nat} (hn : n < p.framePeriod) : (BitVec.ofNat 8 n).toNat = n := by
  unfold Params.Legal at hl
  exact Nat.mod_eq_of_lt (by omega)

theorem readFrame_slot (s : State) : (readFrame s).extractLsb' 0 8 = BitVec.ofNat 8 s.tx.slot :=
  BitVec.extractLsb'_append_eq_right

/-- Settles O24: a slot is below P, so its 8 bits are all of it; the reset slot is P - 1. -/
theorem frameRegister : Obligations.FrameRegister := by
  refine ⟨fun s => ⟨⟨readFrame s, rfl, BitVec.extractLsb'_append_eq_left, fun hl hslot => ?_⟩, fun _ => rfl⟩, fun p hl => ?_⟩
  · rw [readFrame_slot]
    exact toNat_slot hl hslot
  · have hslot : p.framePeriod - 1 < p.framePeriod := by
      unfold Params.Legal at hl
      omega
    calc (readFrame (State.resetOf p)).toNat = (BitVec.ofNat 8 (p.framePeriod - 1)).toNat := by
          simp only [readFrame, BitVec.toNat_append, BitVec.toNat_zero, Nat.zero_shiftLeft, Nat.zero_or, State.resetOf]
      _ = p.framePeriod - 1 := toNat_slot hl hslot

/-! ## BTN_STAT and HOLD -/

theorem readBtnStat_db (s : State) (k : Fin 4) : (readBtnStat s).getLsbD k = (quadGet s.btn.db k != 0) := by
  simp only [readBtnStat, BitVec.getLsbD_append]
  match k with
  | 0 | 1 | 2 | 3 => exact getLsbD_zero_bit1 _

theorem readBtnStat_levels (s : State) : (readBtnStat s).extractLsb' 8 4 = s.sample.btn := by
  simp (disch := decide) only [readBtnStat, BitVec.extractLsb'_append_eq_of_le, BitVec.extractLsb'_append_eq_of_add_le,
    BitVec.extractLsb'_eq_self, Nat.reduceSub]

theorem readBtnStat_level (s : State) (k : Fin 4) : (readBtnStat s).getLsbD (8 + k) = s.sample.btn.getLsbD k := by
  rw [← readBtnStat_levels, BitVec.getLsbD_extractLsb', decide_eq_true k.isLt, Bool.true_and]

theorem readBtnStat_gap (s : State) : (readBtnStat s).extractLsb' 4 4 = 0 := by
  simp (disch := decide) only [readBtnStat, BitVec.extractLsb'_append_eq_of_le, BitVec.extractLsb'_append_eq_of_add_le]
  rfl

theorem readBtnStat_reserved (s : State) : (readBtnStat s).extractLsb' 12 4 = 0 := by
  simp (disch := decide) only [readBtnStat, BitVec.extractLsb'_append_eq_of_le]
  rfl

/-- R67, R229: after reset no debounce window runs. -/
theorem readBtnStat_resetOf (p : Params) (l : List Pins) :
    readBtnStat { State.resetOf p with sync := l } =
      0#4 ++ ({ State.resetOf p with sync := l } : State).sample.btn ++ 0#8 := by
  have hword : ∀ levels : BitVec 4,
      (0#4 ++ levels ++ 0#4 ++ 0#1 ++ 0#1 ++ 0#1 ++ 0#1 : Word) = 0#4 ++ levels ++ 0#8 := fun levels =>
    BitVec.eq_of_toNat_eq <| by
      simp only [BitVec.toNat_append, BitVec.toNat_zero, Nat.or_zero, ← Nat.shiftLeft_add]
  exact hword _

/-- Settles O25. -/
theorem btnStatRegister : Obligations.BtnStatRegister :=
  ⟨fun s => ⟨⟨readBtnStat s, rfl, fun k => ⟨readBtnStat_db s k, readBtnStat_level s k⟩, readBtnStat_gap s,
    readBtnStat_reserved s⟩, fun _ => rfl⟩, readBtnStat_resetOf⟩

/-- Settles O26. -/
theorem holdRegister : Obligations.HoldRegister :=
  ⟨fun _ => ⟨rfl, fun _ => rfl⟩, fun _ => rfl⟩

/-! ## The outputs after reset -/

/-- Settles O13: the role is released, nothing is transmitted, and no flag is set. -/
theorem outputsAreQuietAfterReset : Obligations.OutputsAreQuietAfterReset := by
  refine fun p => ⟨rfl, rfl, fun l => ?_⟩
  cases l <;> simp [State.irq, State.resetOf]

end Sys2Proof.Machine
end

section
/-! One-wire commands (20_memory.md R80, 40_onewire.md R117, R118, R137): a command, under either of its spellings, is the
command cycle of its operation and its `DATA` byte. -/

namespace Sys2Proof.Machine

open Sys2Proof

theorem exec_instrOfOp (op : OwOp) (data : Byte) (s : State) :
    exec (instrOfOp op data) s = .next (commandCycle s (acceptOp s.params op data s.ow)) := by
  cases op <;> rfl

theorem exec_wrOwCmd_of_rsv_zero {v : Word} (hv : cmdRsv v = 0) (s : State) :
    exec (.wrOwCmd v) s = .next (commandCycle s (acceptOp s.params (opOfCode (cmdOpField v)) (cmdData v) s.ow)) :=
  if_pos hv

/-- R80: the write of a word does what the command the word decodes to does. -/
theorem exec_wrOwCmd (v : Word) (s : State) : exec (.wrOwCmd v) s = exec (decodeCmd v) s := by
  by_cases hv : cmdRsv v = 0
  · rw [exec_wrOwCmd_of_rsv_zero hv, decodeCmd, if_pos hv, exec_instrOfOp]
  · rw [decodeCmd, if_neg hv]

/-- Settles O29. -/
theorem owCmdWriteIsACommand : Obligations.OwCmdWriteIsACommand := by
  refine fun v s => ⟨⟨decodeCmd v, rfl, exec_wrOwCmd v s⟩, fun hidle hv => ?_, rfl⟩
  rw [exec_wrOwCmd_of_rsv_zero hv, commandCycle_idle s _ hidle]
  rfl

/-- Settles O33: accepted, since the master is idle; the new role drives the line, and no operation runs. -/
theorem driveHighDrivesTheIdleLine : Obligations.DriveHighDrivesTheIdleLine := by
  intro s data hidle
  have hexec : exec (.driveHigh data) s = .next (acceptCycle s (acceptDriveHigh s.ow)) :=
    (exec_instrOfOp .driveHigh data s).trans (congrArg Host.Outcome.next (commandCycle_idle s _ hidle))
  exact ⟨_, hexec, rfl, rfl, rfl, hidle⟩

end Sys2Proof.Machine
end

section
/-! The host's accesses as the memory map has them (20_memory.md R76, R77, R84, R85, R93): what the decoder makes of every access
of the contract and of every other, and what a cycle, with `rst` (70_reset_and_hazards.md R227) or without, makes of the access. -/

namespace Sys2Proof

/-! ## The fields of an access, put together again -/

/-- R98: a command word is its three fields. -/
theorem cmdFields_append (v : Word) : cmdData v ++ cmdRsv v ++ cmdOpField v = v := by
  have hhigh : cmdData v ++ cmdRsv v = v.extractLsb' 3 13 := BitVec.extractLsb'_append_extractLsb'_eq_extractLsb' rfl
  have hall : v.extractLsb' 3 13 ++ cmdOpField v = v.extractLsb' 0 16 :=
    BitVec.extractLsb'_append_extractLsb'_eq_extractLsb' rfl
  rw [hhigh, hall, BitVec.extractLsb'_eq_self]

theorem opCode_opOfCode (c : BitVec 3) : opCode (opOfCode c) = c := by
  revert c
  decide

/-- R102: the parity of an offset is bit 0 of its descriptor. -/
theorem getLsbD_zero_descOff (desc : BitVec 6) : (descOff desc).getLsbD 0 = desc.getLsbD 0 := by
  simp [descOff]

theorem even_offset {off : BitVec 5} (h : off.getLsbD 0 = false) : ∃ k : Fin 16, off = BitVec.ofNat 5 (2 * k) := by
  revert off
  decide

theorem odd_offset {off : BitVec 5} (h : off.getLsbD 0 = true) : ∃ k : Fin 16, off = BitVec.ofNat 5 (2 * k + 1) := by
  revert off
  decide

/-! ## What the bus port sees -/

theorem portView_encodeCmd (op : OwOp) (data : Byte) :
    portView (encodeCmd op data) = (false, true, 0x04#5, data ++ 0#5 ++ opCode op) := rfl

theorem portView_encodeRead (off : BitVec 5) : portView (encodeRead off) = (false, false, off, 0) := by
  simp [encodeRead, portView, descWrite_append, descOff_append]

theorem portView_encodeWrite (off : BitVec 5) (v : Word) : portView (encodeWrite off v) = (false, true, off, v) := by
  simp [encodeWrite, portView, descWrite_append, descOff_append]

theorem portView_acc (size8 : Bool) (desc : BitVec 6) (wdata : Word) :
    portView (.acc size8 desc wdata) = (size8, descWrite desc, descOff desc, if descWrite desc then wdata else 0) := rfl

theorem inContract_cmd (word : Word) : inContract (.cmd word) = true := by
  simp [inContract, portView]

theorem inContract_acc (size8 : Bool) (desc : BitVec 6) (wdata : Word) :
    inContract (.acc size8 desc wdata) = (!size8 && !desc.getLsbD 0) := by
  rw [← getLsbD_zero_descOff]
  rfl

/-! ## The decoder, by format -/

theorem instrOfOp_wellFormed (op : OwOp) (data : Byte) : (instrOfOp op data).WellFormed := by cases op <;> rfl

theorem encode_instrOfOp (op : OwOp) (data : Byte) : encode (instrOfOp op data) = encodeCmd op data := by
  cases op <;> rfl

theorem decodeCmd_wellFormed (v : Word) : (decodeCmd v).WellFormed := by
  by_cases hv : cmdRsv v = 0
  · rw [decodeCmd, if_pos hv]
    exact instrOfOp_wellFormed _ _
  · rw [decodeCmd, if_neg hv]
    rfl

/-- R59, R97: under either of its spellings, a command is the write of its word at offset 0x04. -/
theorem portView_encode_decodeCmd (v : Word) : portView (encode (decodeCmd v)) = portView (.cmd v) := by
  by_cases hv : cmdRsv v = 0
  · have hword : cmdData v ++ 0#5 ++ opCode (opOfCode (cmdOpField v)) = v := by
      rw [opCode_opOfCode, show (0#5) = cmdRsv v from hv.symm, cmdFields_append]
    rw [decodeCmd, if_pos hv, encode_instrOfOp, portView_encodeCmd, hword]
    rfl
  · rw [decodeCmd, if_neg hv]
    exact portView_encodeWrite 0x04#5 v

/-- R48, R84: each of the 16 even offsets has its own read. -/
theorem decodeRead_even {off : BitVec 5} (h : off.getLsbD 0 = false) :
    ∃ i, decodeRead off = .ok i ∧ i.WellFormed ∧ encode i = encodeRead off := by
  obtain ⟨k, rfl⟩ := even_offset h
  fin_cases k <;> exact ⟨_, rfl, rfl, rfl⟩

theorem decodeWrite_even {off : BitVec 5} (h : off.getLsbD 0 = false) (v : Word) :
    ∃ i, decodeWrite off v = .ok i ∧ i.WellFormed ∧ encode i = encodeWrite off v := by
  obtain ⟨k, rfl⟩ := even_offset h
  fin_cases k <;> exact ⟨_, rfl, rfl, rfl⟩

theorem decodeRead_odd {off : BitVec 5} (h : off.getLsbD 0 = true) : decodeRead off = .error .oddOffset := by
  obtain ⟨k, rfl⟩ := odd_offset h
  fin_cases k <;> rfl

theorem decodeWrite_odd {off : BitVec 5} (h : off.getLsbD 0 = true) (v : Word) :
    decodeWrite off v = .error .oddOffset := by
  obtain ⟨k, rfl⟩ := odd_offset h
  fin_cases k <;> rfl

/-! ## The decoder and the contract -/

theorem decode_acc_odd {desc : BitVec 6} (h : desc.getLsbD 0 = true) (wdata : Word) :
    decode (.acc false desc wdata) = .error .oddOffset := by
  rw [← getLsbD_zero_descOff] at h
  cases hw : descWrite desc
  · simp [decode, hw, decodeRead_odd h]
  · simp [decode, hw, decodeWrite_odd h wdata]

theorem decode_acc_even {desc : BitVec 6} (h : desc.getLsbD 0 = false) (wdata : Word) :
    ∃ i, decode (.acc false desc wdata) = .ok i ∧ i.WellFormed ∧
      portView (encode i) = portView (.acc false desc wdata) := by
  rw [← getLsbD_zero_descOff] at h
  cases hw : descWrite desc
  · obtain ⟨i, hd, hi, henc⟩ := decodeRead_even h
    exact ⟨i, by simp [decode, hw, hd], hi, by simp [henc, portView_encodeRead, portView_acc, hw]⟩
  · obtain ⟨i, hd, hi, henc⟩ := decodeWrite_even h wdata
    exact ⟨i, by simp [decode, hw, hd], hi, by simp [henc, portView_encodeWrite, portView_acc, hw]⟩

theorem decode_of_inContract {op : HostOp} (h : inContract op = true) :
    ∃ i, decode op = .ok i ∧ i.WellFormed ∧ portView (encode i) = portView op := by
  cases op with
  | cmd v => exact ⟨decodeCmd v, rfl, decodeCmd_wellFormed v, portView_encode_decodeCmd v⟩
  | acc size8 desc wdata =>
    obtain ⟨rfl, heven⟩ : size8 = false ∧ desc.getLsbD 0 = false := by simpa [inContract_acc] using h
    exact decode_acc_even heven wdata

theorem decode_of_not_inContract {op : HostOp} (h : inContract op = false) : ∃ e, decode op = .error e := by
  cases op with
  | cmd v => exact absurd (inContract_cmd v) (Bool.eq_false_iff.1 h)
  | acc size8 desc wdata =>
    cases size8 with
    | true => exact ⟨.byteAccess, rfl⟩
    | false => exact ⟨.oddOffset, decode_acc_odd (by simpa [inContract_acc] using h) wdata⟩

/-- Settles O2. -/
theorem contractAccessesDecodeAndOthersAreRejected : Obligations.ContractAccessesDecodeAndOthersAreRejected :=
  fun _ => ⟨decode_of_inContract, decode_of_not_inContract⟩

end Sys2Proof

namespace Sys2Proof.Machine

open Sys2Proof

/-! ## The step, with `rst` and for a rejected access -/

theorem step_of_rejected_access {s : State} {op : HostOp} {e : DecodeError} (hl : s.params.Legal)
    (ha : s.access = some op) (hd : decode op = .error e) : step s = .refused (refusalOf e) := by
  simp only [step, if_pos hl, ha, hd]

/-- R227, R77: with `rst` the access of the cycle decides only the word that `bus_rdata` carries. -/
theorem step_of_rst {s : State} (hl : s.params.Legal) (hr : s.rst = true)
    (hc : ∀ op, s.access = some op → inContract op = true) :
    ∃ r, step s = .next (resetCycle s.taken r) ∧
      (∀ op i, s.access = some op → decode op = .ok i → r = busReadOf s i) ∧ (s.access = none → r = none) := by
  cases ha : s.access with
  | none =>
    have hs : step s = .next (resetCycle s.taken none) := by simp only [step, if_pos hl, ha, quietStep, if_pos hr]
    exact ⟨none, hs, nofun, fun _ => rfl⟩
  | some op =>
    obtain ⟨i, hd, -, -⟩ := decode_of_inContract (hc op ha)
    have hs : step s = .next (resetCycle s.taken (busReadOf s i)) := by
      simp only [step, if_pos hl, ha, hd, accessStep, if_pos hr]
    refine ⟨busReadOf s i, hs, fun op' j hop hj => ?_, nofun⟩
    cases hop
    cases hd.symm.trans hj
    rfl

/-! ## What `bus_rdata` carries, and what a read or an ignored write leaves -/

theorem busReadOf_eq_none_iff (s : State) (i : Instr) : busReadOf s i = none ↔ isReadAccess i = false := by
  cases i <;> simp [busReadOf, isReadAccess]

theorem isReadAccess_of_writesOwCmd {i : Instr} (h : writesOwCmd i = true) : isReadAccess i = false := by
  have hnot : (writesOwCmd i && isReadAccess i) = false := by cases i <;> rfl
  rwa [h, Bool.true_and] at hnot

/-- R77: of the six cycles an instruction can be, only that of a read carries a word. -/
theorem exec_busRdata {i : Instr} {s t : State} (h : exec i s = .next t) : t.busRdata = busReadOf s i := by
  rcases exec_cases h with ⟨w, -, hw, rfl⟩ | ⟨v, rfl, rfl⟩ | ⟨v, rfl, rfl⟩ | ⟨-, hr, -, -, rfl⟩ | ⟨hw, -, rfl⟩ |
    ⟨op, d, -, hw, -, rfl⟩
  · exact hw.symm
  · rfl
  · rfl
  · exact ((busReadOf_eq_none_iff s i).2 hr).symm
  all_goals exact ((busReadOf_eq_none_iff s i).2 (isReadAccess_of_writesOwCmd hw)).symm

/-- R85: what is left of the six cycles is the read and the ignored write. -/
theorem exec_of_no_side_effect {i : Instr} {s t : State} (h : exec i s = .next t) (hcmd : writesOwCmd i = false)
    (hctrl : ∀ v, i ≠ .wrCtrl v) (hifg : ∀ v, i ≠ .wrIfg v) : t = { s.cycleNext with busRdata := t.busRdata } := by
  rcases exec_cases h with ⟨w, -, -, rfl⟩ | ⟨v, hi, -⟩ | ⟨v, hi, -⟩ | ⟨-, -, -, -, rfl⟩ | ⟨hw, -⟩ |
    ⟨op, d, -, hw, -⟩
  · rfl
  · exact absurd hi (hctrl v)
  · exact absurd hi (hifg v)
  · rfl
  all_goals exact absurd (hcmd.symm.trans hw) Bool.false_ne_true

/-! ## The obligations -/

/-- Settles O7: the access, if there is one, decodes, and every instruction completes. -/
theorem contractCyclesComplete : Obligations.ContractCyclesComplete := by
  intro s hl hc
  cases hr : s.rst with
  | true =>
    obtain ⟨r, hs, -, -⟩ := step_of_rst hl hr hc
    exact ⟨_, hs⟩
  | false =>
    cases ha : s.access with
    | none => exact ⟨_, step_of_no_access hl hr ha⟩
    | some op =>
      obtain ⟨i, hd, -, -⟩ := decode_of_inContract (hc op ha)
      rw [step_of_decoded_access hl hr ha hd]
      exact exec_completes i s.taken

/-- Settles O10: the fields of `resetCycle` are those of the reset state, but for the model's own. -/
theorem rstMakesTheResetState : Obligations.RstMakesTheResetState := by
  intro s hl hr hc
  obtain ⟨r, hs, hread, hnone⟩ := step_of_rst hl hr hc
  exact ⟨resetCycle s.taken r, hs, rfl, rfl, rfl, rfl, rfl, rfl, rfl, rfl, rfl, rfl, hread, hnone⟩

/-- Settles O28. -/
theorem onlyThreeWritesHaveSideEffects : Obligations.OnlyThreeWritesHaveSideEffects := by
  intro i s hcmd hctrl hifg
  obtain ⟨t, ht⟩ := exec_completes i s
  have hbus : t.busRdata = busReadOf s i := exec_busRdata ht
  refine ⟨t, ht, exec_of_no_side_effect ht hcmd hctrl hifg, hbus, ?_⟩
  rw [hbus, Ne, busReadOf_eq_none_iff, Bool.not_eq_false]

/-- Settles O5: each refusal is the decoder's own rejection of the access. -/
theorem accessesOutsideTheContractAreRefused : Obligations.AccessesOutsideTheContractAreRefused :=
  fun _ hl _ wdata =>
    ⟨fun ha => step_of_rejected_access hl ha rfl, fun ha hodd => step_of_rejected_access hl ha (decode_acc_odd hodd wdata)⟩

/-- Settles O27: the meanings of the two reserved accesses are the read of 0 and the ignored write, whatever the offset. -/
theorem reservedOffsetsReadZeroAndIgnoreWrites : Obligations.ReservedOffsetsReadZeroAndIgnoreWrites :=
  fun _ _ _ => ⟨rfl, fun _ => rfl⟩

end Sys2Proof.Machine
end

section
/-! The byte operations along a run (40_onewire.md R119, R121, R133 to R136): a phase runs for exactly its duration, a slot is
its phases one after the other, and a byte operation is eight slots with no gap, bit `i` in slot `i`. -/

namespace Sys2Proof.Machine

open Sys2Proof

/-! ## The one-wire state from cycle to cycle -/

/-- R8: no step changes the parameters, with `rst` or without. -/
theorem step_params {s t : State} (h : step s = .next t) : t.params = s.params := by
  obtain ⟨-, ⟨-, r, rfl⟩ | ⟨-, -, rfl⟩ | ⟨-, op, i, -, -, hi⟩⟩ := step_cases h
  · rfl
  · rfl
  · obtain ⟨hparams, -⟩ := exec_units hi
    exact hparams

theorem Run.params {tr : Nat → State} {n : Nat} (hrun : Run tr n) {k : Nat} (hk : k ≤ n) :
    (tr k).params = (tr 0).params :=
  hrun.keeps (P := fun s => s.params = (tr 0).params) rfl (fun _ _ _ hs ih => (step_params hs).trans ih) k hk

/-- R142: while an operation runs, a cycle without `rst` is the engine's, whatever the host's access. -/
theorem step_ow_of_busy {s t : State} (hr : s.rst = false) (h : step s = .next t) (hbusy : s.ow.busy = true) :
    t.ow = owNext s.params s.sample.ow s.ow := by
  obtain ⟨-, ⟨hr', -⟩ | ⟨-, -, rfl⟩ | ⟨-, op, i, -, -, hi⟩⟩ := step_cases h
  · simp [hr] at hr'
  · rfl
  · exact exec_ow (s := s.taken) hi (.inl hbusy)

/-- R117: a command to an idle master takes effect in the cycle after it. -/
theorem exec_instrOfOp_idle {op : OwOp} {data : Byte} {s t : State} (hidle : s.ow.busy = false)
    (h : exec (instrOfOp op data) s = .next t) : t.ow = acceptOp s.params op data s.ow ∧ t.params = s.params := by
  rw [exec_instrOfOp, commandCycle_idle s _ hidle] at h
  cases h
  exact ⟨rfl, rfl⟩

/-- The end action reads the phase, not the count that led to it. -/
theorem endAction_cnt (p : Params) (line : Bool) {ow : OneWire} (hph : ow.phase ≠ .none) (c : Nat) :
    endAction p line { ow with cnt := c } = endAction p line ow := by
  cases hp : ow.phase
  case none => exact absurd hp hph
  all_goals
    simp only [endAction, hp]
    rfl

/-! ## A phase -/

/-- R121: the cycles of a running phase before its last only count down. -/
theorem Run.counts_down {tr : Nat → State} {n : Nat} (hrun : Run tr n) {k : Nat} {ow : OneWire} (hbusy : ow.busy = true)
    (hstart : (tr k).ow = ow) {x : Nat} (hx : x < ow.cnt) (hn : k + x ≤ n) :
    (tr (k + x)).ow = { ow with cnt := ow.cnt - x } := by
  induction x with
  | zero => exact hstart
  | succ x ih =>
    obtain ⟨hr, hs⟩ := hrun (k + x) hn
    have hnow : (tr (k + x)).ow = { ow with cnt := ow.cnt - x } := ih (by omega) (by omega)
    have hcnt : 1 < (tr (k + x)).ow.cnt := by
      rw [hnow]
      exact Nat.lt_sub_of_add_lt (by omega)
    have hrunning : (tr (k + x)).ow.busy = true := by rw [hnow, hbusy]
    rw [← Nat.add_assoc, step_ow_of_busy hr hs hrunning, owNext_counting _ _ _ hrunning hcnt, hnow]
    rfl

section
variable {tr : Nat → State} {n : Nat} {p : Params} (hrun : Run tr n) (hp : (tr 0).params = p) (hl : p.Legal)
include hrun hp hl

/-- R119, R121: a phase lasts exactly its duration, and its end action is taken in its last cycle. -/
theorem Run.phase {k d : Nat} {ph : OwPhase} {ow : OneWire} (hph : ph ≠ .none) (hbusy : ow.busy = true)
    (hd : phaseDur p (slotBit ow) ph = d) (hstart : (tr k).ow = enterPhase p ph ow) (hn : k + d ≤ n) :
    (∀ x, x < d → (tr (k + x)).ow = { enterPhase p ph ow with cnt := d - x }) ∧
    (tr (k + d)).ow = endAction p (tr (k + d - 1)).sample.ow (enterPhase p ph ow) := by
  have hpos : 1 ≤ d := hd ▸ phaseDur_pos hl _ hph
  obtain ⟨m, rfl⟩ : ∃ m, d = m + 1 := ⟨_, (Nat.sub_add_cancel hpos).symm⟩
  have hcount : ∀ x, x < m + 1 → (tr (k + x)).ow = { enterPhase p ph ow with cnt := m + 1 - x } := by
    intro x hx
    have hcnt : (enterPhase p ph ow).cnt = m + 1 := hd
    rw [← hcnt] at hx ⊢
    exact hrun.counts_down (ow := enterPhase p ph ow) hbusy hstart hx (by omega)
  refine ⟨hcount, ?_⟩
  obtain ⟨hr, hs⟩ := hrun (k + m) hn
  have hlast : (tr (k + m)).ow = { enterPhase p ph ow with cnt := 1 } := by
    rw [hcount m (Nat.lt_succ_self m), Nat.add_sub_cancel_left]
  have hrunning : (tr (k + m)).ow.busy = true := by rw [hlast]; exact hbusy
  calc (tr (k + m + 1)).ow
      = owNext p (tr (k + m)).sample.ow (tr (k + m)).ow := by
        rw [step_ow_of_busy hr hs hrunning, hrun.params (by omega), hp]
    _ = endAction p (tr (k + m)).sample.ow (tr (k + m)).ow := owNext_last _ _ _ hrunning (by rw [hlast])
    _ = endAction p (tr (k + m)).sample.ow (enterPhase p ph ow) := by rw [hlast, endAction_cnt _ _ hph]

end

/-! ## A slot -/

/-- R133: the cycle of a read slot, counted from its start, in which the line is sampled: the last of RD_SAMP. -/
def readSampleTime (p : Params) : Nat := p.tRl * p.clkPerUs + p.tRs * p.clkPerUs - 1

/-- The one-wire state with the slot counter moved to the next bit (R134, R135). -/
def OneWire.nextBit (ow : OneWire) : OneWire := { ow with bit := ow.bit + 1 }

/-- The one-wire state with a sample of the line in the running slot's bit of `ow_shift` (R132, R135). -/
def OneWire.sampled (ow : OneWire) (line : Bool) : OneWire := { ow with shift := setShiftBit ow.shift ow.bit line }

theorem phaseDur_wrLow (p : Params) (b : Bool) : phaseDur p b .wrLow = writeLowLen p b := by cases b <;> rfl

theorem writeSlotLen_eq (p : Params) (b : Bool) : writeSlotLen p b = writeLowLen p b + phaseDur p b .wrRel := by
  cases b <;> rfl

theorem readSlotLen_eq (p : Params) :
    readSlotLen p = durCycles p p.tRl + durCycles p p.tRs + durCycles p p.tRrest := rfl

section
variable {tr : Nat → State} {n : Nat} {p : Params} (hrun : Run tr n) (hp : (tr 0).params = p) (hl : p.Legal)
include hrun hp hl

/-- R116, R134: a write slot drives low for the low time of its bit and releases for the rest; then the next bit follows, or
the finish. -/
theorem Run.writeSlot {k : Nat} {b : Bool} {ow : OneWire} (hbusy : ow.busy = true) (hb : slotBit ow = b)
    (hstart : (tr k).ow = enterPhase p .wrLow ow) (hn : k + writeSlotLen p b ≤ n) :
    (∀ x, x < writeSlotLen p b → (tr (k + x)).ow.role = if x < writeLowLen p b then .driveLow else .released) ∧
    (tr (k + writeSlotLen p b)).ow =
      if moreBits ow .writeByte then enterPhase p .wrLow ow.nextBit else finishOp ow := by
  subst hb
  rw [writeSlotLen_eq, ← Nat.add_assoc] at hn ⊢
  obtain ⟨hlow, hrel⟩ := hrun.phase hp hl (ph := .wrLow) (by decide) hbusy (phaseDur_wrLow p _) hstart (by omega)
  have hstart' : (tr (k + writeLowLen p (slotBit ow))).ow = enterPhase p .wrRel ow := hrel
  obtain ⟨hreleased, hend⟩ := hrun.phase hp hl (ph := .wrRel) (by decide) hbusy rfl hstart' hn
  refine ⟨fun x hx => ?_, hend⟩
  split
  · rename_i hlt
    rw [hlow x hlt]
    rfl
  · rename_i hge
    obtain ⟨y, rfl⟩ := Nat.exists_eq_add_of_le (Nat.le_of_not_lt hge)
    rw [← Nat.add_assoc, hreleased y (by omega)]
    rfl

/-- R133, R135: a read slot puts its sample into bit `ow_bit` of `ow_shift` and leaves `ow_rdata`; then the next bit follows,
or the finish. -/
theorem Run.readSlot {k : Nat} {ow : OneWire} (hbusy : ow.busy = true) (hstart : (tr k).ow = enterPhase p .rdLow ow)
    (hn : k + readSlotLen p ≤ n) :
    (∀ x, x < readSlotLen p → (tr (k + x)).ow.rdata = ow.rdata) ∧
    (tr (k + readSlotLen p)).ow =
      if moreBits ow .readByte then enterPhase p .rdLow (ow.sampled (tr (k + readSampleTime p)).sample.ow).nextBit
      else finishOp (ow.sampled (tr (k + readSampleTime p)).sample.ow) := by
  have hpos : 1 ≤ durCycles p p.tRs := phaseDur_pos hl false (ph := .rdSamp) (by decide)
  rw [readSlotLen_eq, ← Nat.add_assoc, ← Nat.add_assoc] at hn ⊢
  obtain ⟨hlow, hlowEnd⟩ :=
    hrun.phase hp hl (ph := .rdLow) (d := durCycles p p.tRl) (by decide) hbusy rfl hstart (by omega)
  have hsampStart : (tr (k + durCycles p p.tRl)).ow = enterPhase p .rdSamp ow := hlowEnd
  obtain ⟨hsamp, hsampEnd⟩ :=
    hrun.phase hp hl (ph := .rdSamp) (d := durCycles p p.tRs) (by decide) hbusy rfl hsampStart (by omega)
  have htime : k + durCycles p p.tRl + durCycles p p.tRs - 1 = k + readSampleTime p := by
    simp only [readSampleTime, durCycles] at hpos ⊢
    omega
  have hrestStart : (tr (k + durCycles p p.tRl + durCycles p p.tRs)).ow =
      enterPhase p .rdRest (ow.sampled (tr (k + readSampleTime p)).sample.ow) := by
    rw [← htime]
    exact hsampEnd
  obtain ⟨hrest, hrestEnd⟩ :=
    hrun.phase hp hl (ph := .rdRest) (ow := ow.sampled _) (d := durCycles p p.tRrest) (by decide) hbusy rfl hrestStart hn
  refine ⟨fun x hx => ?_, hrestEnd⟩
  rcases Nat.lt_or_ge x (durCycles p p.tRl) with hx1 | hx1
  · rw [hlow x hx1]
    rfl
  · obtain ⟨y, rfl⟩ := Nat.exists_eq_add_of_le hx1
    rcases Nat.lt_or_ge y (durCycles p p.tRs) with hy | hy
    · rw [← Nat.add_assoc, hsamp y hy]
      rfl
    · obtain ⟨z, rfl⟩ := Nat.exists_eq_add_of_le hy
      rw [← Nat.add_assoc, ← Nat.add_assoc, hrest z (by omega)]
      rfl

end

/-! ## The bits of a byte operation -/

/-- The one-wire state with the slot counter at bit `i`. -/
def OneWire.atBit (ow : OneWire) (i : Nat) : OneWire := { ow with bit := BitVec.ofNat 3 i }

theorem nextBit_atBit (ow : OneWire) (i : Nat) : (ow.atBit i).nextBit = ow.atBit (i + 1) := by
  simp only [OneWire.nextBit, OneWire.atBit, BitVec.ofNat_add]
  rfl

/-- R107: slot `i` sends bit `i`. -/
theorem slotBit_atBit (ow : OneWire) {i : Nat} (hi : i < 8) : slotBit (ow.atBit i) = ow.wdata.getLsbD i :=
  congrArg ow.wdata.getLsbD (Nat.mod_eq_of_lt hi)

/-- R134, R135: a byte operation goes on after every slot but the last. -/
theorem moreBits_atBit {ow : OneWire} {op : OwOp} (hop : ow.op = op) {i : Nat} (hi : i < 8) :
    moreBits (ow.atBit i) op = decide (i < 7) := by
  have hop' : (ow.atBit i).op = op := hop
  have hbit : (ow.atBit i).bit.toNat = i := Nat.mod_eq_of_lt hi
  rw [moreBits, hbit, hop', beq_self_eq_true, Bool.true_and]

/-- R135: a sample changes its own bit of `ow_shift` only. -/
theorem getLsbD_setShiftBit (shift : Byte) (k : BitVec 3) (b : Bool) {j : Nat} (hj : j < 8) :
    (setShiftBit shift k b).getLsbD j = if j = k.toNat then b else shift.getLsbD j := by
  have hmask : (1#8 <<< k.toNat).getLsbD j = decide (j = k.toNat) := by
    rw [← BitVec.twoPow_eq, BitVec.getLsbD_twoPow]
    grind
  cases b with
  | true =>
    rw [setShiftBit, if_pos rfl, BitVec.getLsbD_or, hmask]
    grind
  | false =>
    rw [setShiftBit, if_neg Bool.false_ne_true, BitVec.getLsbD_and, BitVec.getLsbD_not, hmask]
    grind

/-- R135: `ow_shift` after `i` slots of a READ_BYTE, `f j` the sample of slot `j`. -/
def shiftAfter (f : Nat → Bool) : Nat → Byte
  | 0 => 0x00
  | i + 1 => setShiftBit (shiftAfter f i) (BitVec.ofNat 3 i) (f i)

/-- R107, R135: the sample of slot `j` stands in bit `j`. -/
theorem getLsbD_shiftAfter (f : Nat → Bool) {i j : Nat} (hi : i ≤ 8) (hj : j < i) : (shiftAfter f i).getLsbD j = f j := by
  induction i with
  | zero => exact absurd hj (Nat.not_lt_zero j)
  | succ i ih =>
    have hbit : (BitVec.ofNat 3 i).toNat = i := Nat.mod_eq_of_lt hi
    rw [shiftAfter, getLsbD_setShiftBit _ _ _ (by omega), hbit]
    split
    · rename_i hji
      rw [hji]
    · exact ih (by omega) (by omega)

/-- R133, R136: the sample of slot `i` of a READ_BYTE that starts in cycle 0. -/
def slotSample (tr : Nat → State) (p : Params) (i : Nat) : Bool :=
  (tr (i * readSlotLen p + readSampleTime p)).sample.ow

/-- The one-wire state at the start of slot `i` of a READ_BYTE whose samples are `f`. -/
def OneWire.readState (ow : OneWire) (f : Nat → Bool) (i : Nat) : OneWire := { ow with shift := shiftAfter f i }.atBit i

theorem nextBit_sampled_readState (ow : OneWire) (f : Nat → Bool) (i : Nat) :
    ((ow.readState f i).sampled (f i)).nextBit = ow.readState f (i + 1) :=
  nextBit_atBit { ow with shift := shiftAfter f (i + 1) } i

theorem writeSlotStart_le (p : Params) (x : Byte) {i j : Nat} (h : i ≤ j) : writeSlotStart p x i ≤ writeSlotStart p x j :=
  monotone_nat_of_le_succ (fun _ => Nat.le_add_right _ _) h

section
variable {tr : Nat → State} {n : Nat} {p : Params} (hrun : Run tr n) (hp : (tr 0).params = p) (hl : p.Legal)
include hrun hp hl

/-- R134, R136: slot `i` of a WRITE_BYTE starts at the sum of the lengths of the slots before it. -/
theorem Run.writeByte_slot {ow : OneWire} (hbusy : ow.busy = true) (hop : ow.op = .writeByte)
    (hstart : (tr 0).ow = enterPhase p .wrLow (ow.atBit 0)) (hn : writeSlotStart p ow.wdata 8 ≤ n) {i : Nat}
    (hi : i < 8) : (tr (writeSlotStart p ow.wdata i)).ow = enterPhase p .wrLow (ow.atBit i) := by
  induction i with
  | zero => exact hstart
  | succ i ih =>
    have hlen : writeSlotStart p ow.wdata (i + 1) ≤ n := (writeSlotStart_le p _ hi.le).trans hn
    obtain ⟨-, hend⟩ := hrun.writeSlot hp hl (ow := ow.atBit i) hbusy (slotBit_atBit ow (by omega)) (ih (by omega)) hlen
    rwa [moreBits_atBit hop (by omega), if_pos (by simp only [decide_eq_true_eq]; omega), nextBit_atBit] at hend

/-- R135, R136: the read slots follow each other without a gap, and each adds its sample to `ow_shift`. -/
theorem Run.readByte_slot {ow : OneWire} (hbusy : ow.busy = true) (hop : ow.op = .readByte)
    (hstart : (tr 0).ow = enterPhase p .rdLow (ow.readState (slotSample tr p) 0)) (hn : 8 * readSlotLen p ≤ n) {i : Nat}
    (hi : i < 8) : (tr (i * readSlotLen p)).ow = enterPhase p .rdLow (ow.readState (slotSample tr p) i) := by
  induction i with
  | zero => rwa [Nat.zero_mul]
  | succ i ih =>
    have hlen : i * readSlotLen p + readSlotLen p ≤ n := by
      rw [← Nat.succ_mul]
      exact (Nat.mul_le_mul_right _ hi.le).trans hn
    have hmore : moreBits (ow.readState (slotSample tr p) i) .readByte = decide (i < 7) := moreBits_atBit hop (by omega)
    obtain ⟨-, hend⟩ := hrun.readSlot hp hl (ow := ow.readState _ i) hbusy (ih (by omega)) hlen
    rw [hmore, if_pos (by simp only [decide_eq_true_eq]; omega), ← Nat.succ_mul] at hend
    exact hend.trans (congrArg (enterPhase p .rdLow) (nextBit_sampled_readState ow (slotSample tr p) i))

/-- R122, R135: the last slot ends in the finish, which publishes all eight samples. -/
theorem Run.readByte_rdata {ow : OneWire} (hbusy : ow.busy = true) (hop : ow.op = .readByte)
    (hstart : (tr 0).ow = enterPhase p .rdLow (ow.readState (slotSample tr p) 0)) (hn : 8 * readSlotLen p ≤ n) :
    (tr (8 * readSlotLen p)).ow.rdata = shiftAfter (slotSample tr p) 8 := by
  have hlast := hrun.readByte_slot hp hl hbusy hop hstart hn (i := 7) (by decide)
  have hmore : moreBits (ow.readState (slotSample tr p) 7) .readByte = false := moreBits_atBit hop (by decide)
  obtain ⟨-, hend⟩ := hrun.readSlot hp hl (ow := ow.readState _ 7) hbusy hlast (by omega)
  rw [hmore, if_neg Bool.false_ne_true, ← Nat.succ_mul] at hend
  have hread : isRead ow.op = true := by rw [hop]; rfl
  rw [hend]
  exact if_pos hread

end

/-! ## The obligations -/

/-- Settles O41: slot `i` starts where the statement has it, and `Run.writeSlot` gives the role in each of its cycles. -/
theorem writeByteDrivesItsBitsLsbFirst : Obligations.WriteByteDrivesItsBitsLsbFirst := by
  intro data s tr hl hidle hexec hrun i hi x hx
  obtain ⟨how, hp⟩ := exec_instrOfOp_idle (op := .writeByte) hidle hexec
  have hslot := hrun.writeByte_slot hp hl
    (ow := { s.ow with busy := true, op := .writeByte, shift := 0x00, wdata := data }) rfl rfl how (le_refl _) hi
  have hlen : writeSlotStart s.params data i + writeSlotLen s.params (data.getLsbD i) ≤ writeSlotStart s.params data 8 :=
    writeSlotStart_le s.params data hi
  obtain ⟨hrole, -⟩ := hrun.writeSlot hp hl rfl (slotBit_atBit _ hi) hslot hlen
  exact hrole x hx

/-- Settles O42: cycle `k` lies in slot `k / L_R`, which leaves `ow_rdata`, and the finish publishes the samples' byte. -/
theorem readByteAssemblesItsSamplesLsbFirst : Obligations.ReadByteAssemblesItsSamplesLsbFirst := by
  intro data s tr hl hidle hexec hrun
  obtain ⟨how, hp⟩ := exec_instrOfOp_idle (op := .readByte) hidle hexec
  have hslot := fun i => hrun.readByte_slot hp hl (i := i)
    (ow := { s.ow with busy := true, op := .readByte }) rfl rfl how (le_refl _)
  have hfinish := hrun.readByte_rdata hp hl
    (ow := { s.ow with busy := true, op := .readByte }) rfl rfl how (le_refl _)
  refine ⟨fun k hk => ?_, fun i hi => ?_⟩
  · have hpos : 0 < readSlotLen s.params := Nat.pos_of_lt_mul_left hk
    have hi : k / readSlotLen s.params < 8 := (Nat.div_lt_iff_lt_mul hpos).2 hk
    have hlen : k / readSlotLen s.params * readSlotLen s.params + readSlotLen s.params ≤ 8 * readSlotLen s.params := by
      rw [← Nat.succ_mul]
      exact Nat.mul_le_mul_right _ hi
    obtain ⟨hkept, -⟩ := hrun.readSlot hp hl rfl (hslot _ hi) hlen
    have hk' := hkept (k % readSlotLen s.params) (Nat.mod_lt k hpos)
    rwa [Nat.div_add_mod'] at hk'
  · rw [hfinish]
    exact getLsbD_shiftAfter _ (le_refl 8) hi

end Sys2Proof.Machine
end

section
/-! One cycle of the one-wire master (40_onewire.md R116 to R118, R120 to R122, R126, R134, R135, R138, R139, R142): what a
rejected and an accepted command make of the state, what the engine does in the middle of a phase, at its end and at the finish,
and when OW_DONE_IF is raised. -/

namespace Sys2Proof.Machine

open Sys2Proof

/-! ## Commands -/

/-- R118: `raise Flag(OW_CMD_ERR)` sets bit 5 of what the units leave in `IFG`. -/
theorem rejectCycle_eq (s : State) : rejectCycle s = { s.cycleNext with ifg := s.cycleNext.ifg ||| 0x0020 } := by
  have hifg : (rejectCycle s).ifg = s.cycleNext.ifg ||| 0x0020 := (BitVec.or_assoc _ _ _).symm
  rw [← hifg]
  rfl

theorem exec_rejected {i : Instr} {s : State} (hw : writesOwCmd i = true) (hrej : s.ow.busy = true ∨ isCommand i = false) :
    exec i s = .next (rejectCycle s) := by
  obtain ⟨t, ht⟩ := exec_completes i s
  rw [ht]
  rcases exec_cases ht with ⟨w, hread, -, -⟩ | ⟨v, rfl, -⟩ | ⟨v, rfl, -⟩ | ⟨hw', -⟩ | ⟨-, -, rfl⟩ |
    ⟨op, d, hcmd, -, hidle, -⟩
  · exact absurd ((isReadAccess_of_writesOwCmd hw).symm.trans hread) Bool.false_ne_true
  · exact absurd hw Bool.false_ne_true
  · exact absurd hw Bool.false_ne_true
  · exact absurd (hw'.symm.trans hw) Bool.false_ne_true
  · rfl
  · simp [hidle, hcmd] at hrej

/-- R117: to an idle master every command with `RSV` 0 is accepted. -/
theorem exec_instrOfOp_accepted {s : State} (hidle : s.ow.busy = false) (op : OwOp) (data : Byte) :
    exec (instrOfOp op data) s = .next (acceptCycle s (acceptOp s.params op data s.ow)) := by
  rw [exec_instrOfOp, commandCycle_idle s _ hidle]

/-- R121: in a cycle in which the master stays idle the engine writes nothing, so writing its state back changes nothing. -/
theorem acceptCycle_self {s : State} (hidle : s.ow.busy = false) : acceptCycle s s.ow = s.cycleNext := by
  have how : s.cycleNext.ow = s.ow := owNext_idle _ _ _ hidle
  calc acceptCycle s s.ow = acceptCycle s s.cycleNext.ow := by rw [how]
    _ = s.cycleNext := rfl

/-- R100: WRITE_BIT latches `DATA[0]`, zero-extended. -/
theorem bitOperand_eq (data : Byte) : bitOperand data = if data.getLsbD 0 then 1 else 0 := by
  have hbit : data.extractLsb' 0 1 = BitVec.ofBool (data.getLsbD 0) := by
    ext k hk
    obtain rfl : k = 0 := by omega
    simp
  rw [bitOperand, hbit]
  cases data.getLsbD 0 <;> rfl

/-- R116: the slot of a WRITE_BIT sends `DATA[0]`. -/
theorem getLsbD_zero_bitOperand (data : Byte) : (bitOperand data).getLsbD 0 = data.getLsbD 0 := by
  simp [bitOperand]

/-! ## The end of a phase -/

theorem moreBits_iff (ow : OneWire) (op : OwOp) : moreBits ow op = true ↔ ow.op = op ∧ ow.bit.toNat < 7 := by
  simp [moreBits]

/-- R116, R134, R135: the phases that end an operation. -/
theorem endsInFinish_iff (ow : OneWire) :
    endsInFinish ow = true ↔ ow.phase = .rstPres ∨ (ow.phase = .wrRel ∧ ¬(ow.op = .writeByte ∧ ow.bit.toNat < 7)) ∨
      (ow.phase = .rdRest ∧ ¬(ow.op = .readByte ∧ ow.bit.toNat < 7)) := by
  rw [← moreBits_iff, ← moreBits_iff]
  cases hph : ow.phase <;> simp [endsInFinish, hph]

theorem endAction_rstLow {ow : OneWire} (p : Params) (line : Bool) (h : ow.phase = .rstLow) :
    endAction p line ow = enterPhase p .rstRec ow := by
  simp only [endAction, h]

theorem endAction_rstRec {ow : OneWire} (p : Params) (line : Bool) (h : ow.phase = .rstRec) :
    endAction p line ow = enterPhase p .rstPres { ow with s1 := line } := by
  simp only [endAction, h]

theorem endAction_wrLow {ow : OneWire} (p : Params) (line : Bool) (h : ow.phase = .wrLow) :
    endAction p line ow = enterPhase p .wrRel ow := by
  simp only [endAction, h]

theorem endAction_wrRel_more {ow : OneWire} (p : Params) (line : Bool) (h : ow.phase = .wrRel)
    (hmore : moreBits ow .writeByte = true) : endAction p line ow = enterPhase p .wrLow ow.nextBit := by
  simp only [endAction, h, if_pos hmore]
  rfl

theorem endAction_rdLow {ow : OneWire} (p : Params) (line : Bool) (h : ow.phase = .rdLow) :
    endAction p line ow = enterPhase p .rdSamp ow := by
  simp only [endAction, h]

theorem endAction_rdSamp {ow : OneWire} (p : Params) (line : Bool) (h : ow.phase = .rdSamp) :
    endAction p line ow = enterPhase p .rdRest (ow.sampled line) := by
  simp only [endAction, h]
  rfl

theorem endAction_rdRest_more {ow : OneWire} (p : Params) (line : Bool) (h : ow.phase = .rdRest)
    (hmore : moreBits ow .readByte = true) : endAction p line ow = enterPhase p .rdLow ow.nextBit := by
  simp only [endAction, h, if_pos hmore]
  rfl

/-- R122: the operations that publish `ow_rdata`. -/
theorem isRead_iff (op : OwOp) : isRead op = true ↔ op = .readBit ∨ op = .readByte := by cases op <;> simp [isRead]

/-- R122, R126: the end action of a last phase is the finish, and RST_PRES alone also writes `ow_result`. -/
theorem endAction_finish {ow : OneWire} (p : Params) (line : Bool) (h : endsInFinish ow = true) :
    endAction p line ow =
      finishOp { ow with result := if ow.phase = .rstPres then resetOutcome ow.s1 line else ow.result } := by
  cases hph : ow.phase
  case rstPres => simp [endAction, hph]
  case wrRel =>
    have hlast : moreBits ow .writeByte = false := by simpa [endsInFinish, hph] using h
    simp only [endAction, hph, hlast]
    rfl
  case rdRest =>
    have hlast : moreBits ow .readByte = false := by simpa [endsInFinish, hph] using h
    simp only [endAction, hph, hlast]
    rfl
  all_goals simp [endsInFinish, hph] at h

theorem toNat_nextBit {ow : OneWire} (h : ow.bit.toNat < 7) : ow.nextBit.bit.toNat = ow.bit.toNat + 1 := by
  rw [OneWire.nextBit]
  bv_omega

/-- R134: slot `ow_bit + 1` sends the next bit of the byte. -/
theorem slotBit_nextBit {ow : OneWire} (h : ow.bit.toNat < 7) : slotBit ow.nextBit = ow.wdata.getLsbD (ow.bit.toNat + 1) :=
  congrArg ow.wdata.getLsbD (toNat_nextBit h)

/-! ## The last cycle of a phase, and OW_DONE_IF -/

/-- R121, R142: in the last cycle of a phase the end action is taken, whatever the access. -/
theorem exec_ow_last {i : Instr} {s t : State} (h : exec i s = .next t) (hbusy : s.ow.busy = true) (hlast : s.ow.cnt ≤ 1) :
    t.ow = endAction s.params s.sample.ow s.ow :=
  (exec_ow h (.inl hbusy)).trans (owNext_last _ _ _ hbusy hlast)

theorem owFinishes_iff (ow : OneWire) : owFinishes ow = true ↔ ow.busy = true ∧ ow.cnt ≤ 1 ∧ endsInFinish ow = true := by
  simp [owFinishes, and_assoc]

/-- R122, R205: only a finish raises OW_DONE_IF; an accepted command does not. -/
theorem exec_owDone_of_no_finish {i : Instr} {s t : State} (h : exec i s = .next t)
    (hno : ¬(s.ow.busy = true ∧ s.ow.cnt ≤ 1 ∧ endsInFinish s.ow = true)) (ht : t.flag .owDone = true) :
    s.flag .owDone = true :=
  exec_flag_of_not_raised h (e := .owDone) (Bool.eq_false_iff.2 ((owFinishes_iff s.ow).not.2 hno)) nofun ht

/-! ## The obligations -/

/-- Settles O30. -/
theorem rejectedCommandOnlyRaisesItsFlag : Obligations.RejectedCommandOnlyRaisesItsFlag := by
  intro i s hw hrej
  rw [exec_rejected hw hrej, rejectCycle_eq]

/-- Settles O44. -/
theorem hostCannotDisturbARunningOperation : Obligations.HostCannotDisturbARunningOperation := by
  intro i s hbusy
  obtain ⟨t, ht⟩ := exec_completes i s
  exact ⟨t, ht, exec_ow ht (.inl hbusy)⟩

/-- Settles O35: no finish while the master is idle or more than one cycle is left. -/
theorem engineCountsDownItsPhase : Obligations.EngineCountsDownItsPhase := by
  intro i s
  obtain ⟨t, ht⟩ := exec_completes i s
  refine ⟨t, ht, fun hbusy hcnt => ?_, fun hidle hw => ?_, fun hno => ?_⟩
  · exact (exec_ow ht (.inl hbusy)).trans (owNext_counting _ _ _ hbusy hcnt)
  · exact (exec_ow ht (.inr hw)).trans (owNext_idle _ _ _ hidle)
  · apply exec_owDone_of_no_finish ht
    rintro ⟨hbusy, hlast, -⟩
    rcases hno with hidle | hcnt
    · exact absurd (hidle.symm.trans hbusy) Bool.false_ne_true
    · omega

/-- Settles O36: the end action is taken, phase by phase, and none of these phases ends in the finish. -/
theorem phaseEndsEnterTheNextPhase : Obligations.PhaseEndsEnterTheNextPhase := by
  intro i s hbusy hlast
  obtain ⟨t, ht⟩ := exec_completes i s
  have how := exec_ow_last ht hbusy hlast
  refine ⟨t, ht, fun hph => ?_, fun hph => ?_, fun hph => ?_, fun hph hop hbit => ?_, fun hph => ?_, fun hph => ?_,
    fun hph hop hbit => ?_, fun hph => ?_⟩
  case refine_1 => exact how.trans (endAction_rstLow _ _ hph)
  case refine_2 => exact how.trans (endAction_rstRec _ _ hph)
  case refine_3 => exact how.trans (endAction_wrLow _ _ hph)
  case refine_4 =>
    rw [how, endAction_wrRel_more _ _ hph ((moreBits_iff _ _).2 ⟨hop, hbit⟩), ← slotBit_nextBit hbit]
    rfl
  case refine_5 => exact how.trans (endAction_rdLow _ _ hph)
  case refine_6 =>
    rw [endAction_rdSamp _ _ hph] at how
    rw [how]
    exact ⟨rfl, fun k hk => getLsbD_setShiftBit _ _ _ hk⟩
  case refine_7 => exact how.trans (endAction_rdRest_more _ _ hph ((moreBits_iff _ _).2 ⟨hop, hbit⟩))
  case refine_8 =>
    apply exec_owDone_of_no_finish ht
    rintro ⟨-, -, hfin⟩
    rw [endsInFinish_iff] at hfin
    grind

/-- Settles O37. -/
theorem finishPublishesAndRaisesDone : Obligations.FinishPublishesAndRaisesDone := by
  intro i s hbusy hlast hph
  obtain ⟨t, ht⟩ := exec_completes i s
  have hfin : endsInFinish s.ow = true := (endsInFinish_iff s.ow).2 hph
  refine ⟨t, ht, exec_flag_raised ht (e := .owDone) ((owFinishes_iff s.ow).2 ⟨hbusy, hlast, hfin⟩), ?_⟩
  rw [exec_ow_last ht hbusy hlast, endAction_finish _ _ hfin]
  simp only [finishOp, isRead_iff, idleRole]

/-- Settles O38: the four rows of the table. -/
theorem resetOutcomeFromItsTwoSamples : Obligations.ResetOutcomeFromItsTwoSamples := by
  intro i s hbusy hlast hph
  obtain ⟨t, ht⟩ := exec_completes i s
  have hres : t.ow.result = resetOutcome s.ow.s1 s.sample.ow := by
    rw [exec_ow_last ht hbusy hlast, endAction_finish _ _ ((endsInFinish_iff s.ow).2 (.inl hph))]
    exact if_pos hph
  refine ⟨t, ht, ?_, ?_, ?_, ?_⟩
  all_goals
    intro hs1 hs2
    rw [hres, hs1, hs2]
    rfl

/-- Settles O31. -/
theorem acceptedTimedOperationsStart : Obligations.AcceptedTimedOperationsStart := by
  intro s data hidle
  have hexec := fun op => exec_instrOfOp_accepted hidle op data
  refine ⟨hexec .reset, ?_, hexec .readBit, hexec .writeByte, hexec .readByte⟩
  rw [← bitOperand_eq, ← getLsbD_zero_bitOperand]
  exact hexec .writeBit

/-- Settles O32: accepted it changes nothing; busy, or with `RSV` not 0, it is rejected like any command. -/
theorem nopChangesNothing : Obligations.NopChangesNothing := by
  refine ⟨rfl, fun s data => ⟨fun hidle => ⟨?_, owNext_idle _ _ _ hidle⟩, fun hbusy => ?_, fun v i _ hrsv hdec => ?_⟩⟩
  · exact (exec_instrOfOp_accepted hidle .nop data).trans (congrArg Host.Outcome.next (acceptCycle_self hidle))
  · exact rejectedCommandOnlyRaisesItsFlag (.nop data) s rfl (.inl hbusy)
  · rw [decode, decodeCmd, if_neg hrsv] at hdec
    cases hdec
    exact rejectedCommandOnlyRaisesItsFlag (.wrOwCmd v) s rfl (.inr (beq_eq_false_iff_ne.2 hrsv))

/-- Settles O34: where the line is already released, the two writes of its role change nothing. -/
theorem releaseReleasesTheLine : Obligations.ReleaseReleasesTheLine := by
  refine ⟨rfl, fun s data hidle => ⟨_, exec_instrOfOp_accepted hidle .release data, rfl, rfl, fun hrole hhigh => ?_⟩⟩
  have how : acceptRelease s.ow = { s.ow with op := .release } := by rw [acceptRelease, ← hrole, ← hhigh]
  exact congrArg (acceptCycle s) how

end Sys2Proof.Machine
end

section
/-! The timed operations along a run (40_onewire.md R119, R121 to R127, R132, R133, R141): the cycles an operation has left fall
by one in every cycle, a RESET is its three phases one after the other, and a READ_BIT is one read slot. -/

namespace Sys2Proof.Machine

open Sys2Proof

/-! ## The cycles an operation has left -/

/-- R134, R136: the cycles of the slots of a WRITE_BYTE after the running one. -/
def writeSlotsLeft (p : Params) (ow : OneWire) : Nat :=
  if ow.op = .writeByte then writeSlotStart p ow.wdata 8 - writeSlotStart p ow.wdata (ow.bit.toNat + 1) else 0

/-- R135, R136: the cycles of the slots of a READ_BYTE after the running one. -/
def readSlotsLeft (p : Params) (ow : OneWire) : Nat :=
  if ow.op = .readByte then (7 - ow.bit.toNat) * readSlotLen p else 0

/-- R116: the cycles of the running operation after the given phase of the running slot. -/
def cyclesAfter (p : Params) (ow : OneWire) : OwPhase → Nat
  | .none | .rstPres => 0
  | .rstLow => durCycles p p.tMsp + durCycles p p.tPres
  | .rstRec => durCycles p p.tPres
  | .wrLow => phaseDur p (slotBit ow) .wrRel + writeSlotsLeft p ow
  | .wrRel => writeSlotsLeft p ow
  | .rdLow => durCycles p p.tRs + (durCycles p p.tRrest + readSlotsLeft p ow)
  | .rdSamp => durCycles p p.tRrest + readSlotsLeft p ow
  | .rdRest => readSlotsLeft p ow

/-- R123: the cycles that the running operation has left, the present one included; 0 while the master is idle. -/
def cyclesLeft (p : Params) (ow : OneWire) : Nat := if ow.busy then ow.cnt + cyclesAfter p ow ow.phase else 0

theorem cyclesLeft_of_busy (p : Params) {ow : OneWire} (hbusy : ow.busy = true) :
    cyclesLeft p ow = ow.cnt + cyclesAfter p ow ow.phase :=
  if_pos hbusy

theorem busy_of_cyclesLeft {p : Params} {ow : OneWire} (h : cyclesLeft p ow ≠ 0) : ow.busy = true := by
  by_contra hidle
  exact h (if_neg hidle)

theorem cyclesLeft_finishOp (p : Params) (ow : OneWire) : cyclesLeft p (finishOp ow) = 0 := rfl

theorem cyclesLeft_enterPhase (p : Params) (ph : OwPhase) {ow : OneWire} (hbusy : ow.busy = true) :
    cyclesLeft p (enterPhase p ph ow) = phaseDur p (slotBit ow) ph + cyclesAfter p ow ph :=
  if_pos hbusy

theorem bit_of_not_moreBits {ow : OneWire} {op : OwOp} (h : moreBits ow op = false) (hop : ow.op = op) :
    ow.bit.toNat = 7 := by
  have hge : ¬ ow.bit.toNat < 7 := fun hlt => by simp [(moreBits_iff ow op).2 ⟨hop, hlt⟩] at h
  have := ow.bit.isLt
  omega

/-- R136: a slot of a WRITE_BYTE that is not the last is followed by the next one, then by the rest. -/
theorem writeSlotsLeft_more {p : Params} {ow : OneWire} (h : moreBits ow .writeByte = true) :
    writeSlotsLeft p ow = writeSlotLen p (slotBit ow.nextBit) + writeSlotsLeft p ow.nextBit := by
  obtain ⟨hop, hbit⟩ := (moreBits_iff ow .writeByte).1 h
  have hle : writeSlotStart p ow.wdata (ow.bit.toNat + 1 + 1) ≤ writeSlotStart p ow.wdata 8 :=
    writeSlotStart_le p ow.wdata (by omega)
  have hnext : writeSlotsLeft p ow.nextBit =
      writeSlotStart p ow.wdata 8 - writeSlotStart p ow.wdata (ow.bit.toNat + 1 + 1) := by
    rw [← toNat_nextBit hbit]
    exact if_pos hop
  have hstart : writeSlotStart p ow.wdata (ow.bit.toNat + 1 + 1) =
      writeSlotStart p ow.wdata (ow.bit.toNat + 1) + writeSlotLen p (ow.wdata.getLsbD (ow.bit.toNat + 1)) := rfl
  rw [writeSlotsLeft, if_pos hop, hnext, slotBit_nextBit hbit]
  omega

theorem writeSlotsLeft_last {p : Params} {ow : OneWire} (h : moreBits ow .writeByte = false) : writeSlotsLeft p ow = 0 := by
  unfold writeSlotsLeft
  split
  · rename_i hop
    rw [bit_of_not_moreBits h hop, Nat.sub_self]
  · rfl

/-- R136: a slot of a READ_BYTE that is not the last is followed by the next one, then by the rest. -/
theorem readSlotsLeft_more {p : Params} {ow : OneWire} (h : moreBits ow .readByte = true) :
    readSlotsLeft p ow = readSlotLen p + readSlotsLeft p ow.nextBit := by
  obtain ⟨hop, hbit⟩ := (moreBits_iff ow .readByte).1 h
  have hnext : readSlotsLeft p ow.nextBit = (7 - (ow.bit.toNat + 1)) * readSlotLen p := by
    rw [← toNat_nextBit hbit]
    exact if_pos hop
  have hslots : 7 - ow.bit.toNat = 7 - (ow.bit.toNat + 1) + 1 := by omega
  rw [readSlotsLeft, if_pos hop, hnext, hslots, Nat.succ_mul, Nat.add_comm]

theorem readSlotsLeft_last {p : Params} {ow : OneWire} (h : moreBits ow .readByte = false) : readSlotsLeft p ow = 0 := by
  unfold readSlotsLeft
  split
  · rename_i hop
    rw [bit_of_not_moreBits h hop, Nat.sub_self, Nat.zero_mul]
  · rfl

/-- R116, R134, R135: after the end action the operation has the cycles left that follow the ended phase. -/
theorem cyclesLeft_endAction (p : Params) (line : Bool) {ow : OneWire} (hbusy : ow.busy = true) (hph : ow.phase ≠ .none) :
    cyclesLeft p (endAction p line ow) = cyclesAfter p ow ow.phase := by
  cases hp : ow.phase
  case none => exact absurd hp hph
  case rstLow => exact endAction_rstLow p line hp ▸ cyclesLeft_enterPhase p .rstRec hbusy
  case rstRec => exact endAction_rstRec p line hp ▸ cyclesLeft_enterPhase p .rstPres hbusy
  case rstPres =>
    rw [endAction_finish p line (by rw [endsInFinish, hp])]
    exact cyclesLeft_finishOp p _
  case wrLow => exact endAction_wrLow p line hp ▸ cyclesLeft_enterPhase p .wrRel hbusy
  case wrRel =>
    cases hmore : moreBits ow .writeByte with
    | true =>
      rw [endAction_wrRel_more p line hp hmore, cyclesLeft_enterPhase p .wrLow (ow := ow.nextBit) hbusy, cyclesAfter,
        cyclesAfter, writeSlotsLeft_more hmore, writeSlotLen_eq, phaseDur_wrLow, Nat.add_assoc]
    | false =>
      rw [endAction_finish p line (by simp [endsInFinish, hp, hmore]), cyclesLeft_finishOp, cyclesAfter,
        writeSlotsLeft_last hmore]
  case rdLow => exact endAction_rdLow p line hp ▸ cyclesLeft_enterPhase p .rdSamp hbusy
  case rdSamp =>
    rw [endAction_rdSamp p line hp]
    exact cyclesLeft_enterPhase p .rdRest (ow := ow.sampled line) hbusy
  case rdRest =>
    cases hmore : moreBits ow .readByte with
    | true =>
      rw [endAction_rdRest_more p line hp hmore, cyclesLeft_enterPhase p .rdLow (ow := ow.nextBit) hbusy, cyclesAfter,
        cyclesAfter, readSlotsLeft_more hmore, readSlotLen_eq]
      simp only [phaseDur, Nat.add_assoc]
    | false =>
      rw [endAction_finish p line (by simp [endsInFinish, hp, hmore]), cyclesLeft_finishOp, cyclesAfter,
        readSlotsLeft_last hmore]

/-- R30: an operation runs in a phase of its own, and NONE is a phase of none. -/
theorem OneWireInv.phase_ne_none {p : Params} {ow : OneWire} (hinv : OneWireInv p ow) (hbusy : ow.busy = true) :
    ow.phase ≠ .none := by
  intro hnone
  have hown := hinv.busy_phase hbusy
  rw [hnone] at hown
  cases hop : ow.op <;> simp [hop, phaseOfOp] at hown

/-- R121: a running operation has the present cycle left, so with none left the master is idle. -/
theorem OneWireInv.idle_of_cyclesLeft {p : Params} {ow : OneWire} (hinv : OneWireInv p ow) (h : cyclesLeft p ow = 0) :
    ow.busy = false := by
  by_contra hbusy
  rw [Bool.not_eq_false] at hbusy
  obtain ⟨hpos, -⟩ := hinv.busy_cnt hbusy
  rw [cyclesLeft_of_busy p hbusy] at h
  omega

/-- R121, R123: a cycle of a running operation uses up one of the cycles it has left. -/
theorem cyclesLeft_owNext {p : Params} {ow : OneWire} (hinv : OneWireInv p ow) (hbusy : ow.busy = true) (line : Bool) :
    cyclesLeft p ow = cyclesLeft p (owNext p line ow) + 1 := by
  obtain ⟨hpos, -⟩ := hinv.busy_cnt hbusy
  rw [cyclesLeft_of_busy p hbusy]
  by_cases hcnt : 1 < ow.cnt
  · have hnext : cyclesLeft p { ow with cnt := ow.cnt - 1 } = ow.cnt - 1 + cyclesAfter p ow ow.phase := if_pos hbusy
    rw [owNext_counting p line ow hbusy hcnt, hnext]
    omega
  · have hph := hinv.phase_ne_none hbusy
    rw [owNext_last p line ow hbusy (Nat.not_lt.mp hcnt), cyclesLeft_endAction p line hbusy hph]
    omega

/-- R121, R123: the last cycle that an operation has left is that of its finish. -/
theorem owFinishes_of_cyclesLeft_one {p : Params} (hl : p.Legal) {ow : OneWire} (hinv : OneWireInv p ow)
    (h : cyclesLeft p ow = 1) : owFinishes ow = true := by
  have hbusy : ow.busy = true := busy_of_cyclesLeft (p := p) (by omega)
  obtain ⟨hpos, -⟩ := hinv.busy_cnt hbusy
  have hph := hinv.phase_ne_none hbusy
  rw [cyclesLeft_of_busy p hbusy] at h
  have hnext : (endAction p false ow).busy = false :=
    (endAction_keeps_inv hl hinv hbusy false).idle_of_cyclesLeft (by rw [cyclesLeft_endAction p false hbusy hph]; omega)
  obtain ⟨-, hkept, -⟩ | ⟨hfin, -⟩ := endAction_cases p false ow hph
  · exact absurd (hnext.symm.trans (hkept.trans hbusy)) Bool.false_ne_true
  · exact (owFinishes_iff ow).2 ⟨hbusy, by omega, hfin⟩

/-- R117, R123: an accepted operation has its whole length left. -/
theorem cyclesLeft_acceptTimed (p : Params) {op : OwOp} (hop : isTimed op = true) (data : Byte) (ow : OneWire) :
    cyclesLeft p (acceptTimed p op data ow) = opLen p data op := by
  have hwrite : phaseDur p (data.getLsbD 0) .wrLow + phaseDur p (data.getLsbD 0) .wrRel =
      writeSlotLen p (data.getLsbD 0) := by
    rw [writeSlotLen_eq, phaseDur_wrLow]
  refine (cyclesLeft_enterPhase p (firstPhase op) rfl).trans ?_
  cases op
  case reset => exact (Nat.add_assoc _ _ _).symm
  case writeBit =>
    rw [← getLsbD_zero_bitOperand] at hwrite
    exact hwrite.trans (congrArg (writeSlotLen p) (getLsbD_zero_bitOperand data))
  case readBit => exact (Nat.add_assoc _ _ _).symm
  case writeByte =>
    have hfirst : writeSlotStart p data 1 = writeSlotLen p (data.getLsbD 0) := Nat.zero_add _
    have hle : writeSlotStart p data 1 ≤ writeSlotStart p data 8 := writeSlotStart_le p data (by decide)
    change phaseDur p (data.getLsbD 0) .wrLow +
      (phaseDur p (data.getLsbD 0) .wrRel + (writeSlotStart p data 8 - writeSlotStart p data 1)) = writeSlotStart p data 8
    omega
  case readByte =>
    change durCycles p p.tRl + (durCycles p p.tRs + (durCycles p p.tRrest + 7 * readSlotLen p)) = 8 * readSlotLen p
    rw [readSlotLen_eq]
    omega
  all_goals exact absurd hop Bool.false_ne_true

/-! ## A timed operation along a run -/

theorem acceptOp_of_timed (p : Params) {op : OwOp} (hop : isTimed op = true) (data : Byte) (ow : OneWire) :
    acceptOp p op data ow = acceptTimed p op data ow := by
  cases op
  case nop | driveHigh | release => exact absurd hop Bool.false_ne_true
  all_goals rfl

/-- R207: a raise of a cycle without `rst` sets its flag. A cycle with no access is that of an ignored write. -/
theorem step_flag_raised {s t : State} (hr : s.rst = false) (h : step s = .next t) {e : Event}
    (hu : unitRaises s e = true) : t.flag e = true := by
  have hu' : unitRaises s.taken e = true := by cases e <;> exact hu
  obtain ⟨-, ⟨hr', -⟩ | ⟨-, -, rfl⟩ | ⟨-, op, i, -, -, hi⟩⟩ := step_cases h
  · simp [hr] at hr'
  · exact exec_flag_raised (i := .wrHold 0) rfl hu'
  · exact exec_flag_raised hi hu'

section
variable {tr : Nat → State} {n : Nat} {p : Params} (hrun : Run tr n) (hp : (tr 0).params = p) (hl : p.Legal)
include hrun hp hl

/-- R121, R142: along a run each cycle of an operation uses up one of the cycles it has left. -/
theorem Run.cyclesLeft_eq {L : Nat} (hinv : OneWireInv p (tr 0).ow) (hleft : cyclesLeft p (tr 0).ow = L) {k : Nat}
    (hk : k ≤ L) (hn : k ≤ n) : OneWireInv p (tr k).ow ∧ cyclesLeft p (tr k).ow = L - k := by
  induction k with
  | zero => exact ⟨hinv, hleft⟩
  | succ k ih =>
    obtain ⟨hinvk, hleftk⟩ := ih (by omega) (by omega)
    obtain ⟨hr, hs⟩ := hrun k hn
    have hbusy : (tr k).ow.busy = true := busy_of_cyclesLeft (p := p) (by omega)
    have hnext : (tr (k + 1)).ow = owNext p (tr k).sample.ow (tr k).ow := by
      rw [step_ow_of_busy hr hs hbusy, hrun.params (by omega), hp]
    have huse := cyclesLeft_owNext hinvk hbusy (tr k).sample.ow
    rw [hnext]
    exact ⟨owNext_keeps_inv hl hinvk _, by omega⟩

/-- R125 to R127: a RESET drives low for RST_LOW, releases for RST_REC and RST_PRES, leaves `ow_result` until the finish, and
takes its samples in the last cycles of RST_REC and RST_PRES. -/
theorem Run.reset {ow : OneWire} (hbusy : ow.busy = true) (hstart : (tr 0).ow = enterPhase p .rstLow ow)
    (hn : resetLen p ≤ n) :
    (∀ k, k < resetLen p → (tr k).ow.role = (if k < durCycles p p.tRstl then .driveLow else .released) ∧
      (tr k).ow.result = ow.result) ∧
    (tr (resetLen p)).ow.result =
      resetOutcome (tr (durCycles p p.tRstl + durCycles p p.tMsp - 1)).sample.ow (tr (resetLen p - 1)).sample.ow := by
  have hlen : resetLen p = durCycles p p.tRstl + durCycles p p.tMsp + durCycles p p.tPres := rfl
  rw [hlen] at hn ⊢
  obtain ⟨hlow, hlowEnd⟩ :=
    hrun.phase hp hl (k := 0) (ph := .rstLow) (d := durCycles p p.tRstl) (by decide) hbusy rfl hstart (by omega)
  rw [Nat.zero_add] at hlowEnd
  obtain ⟨hrec, hrecEnd⟩ :=
    hrun.phase hp hl (ph := .rstRec) (ow := ow) (d := durCycles p p.tMsp) (by decide) hbusy rfl hlowEnd (by omega)
  obtain ⟨hpres, hpresEnd⟩ :=
    hrun.phase hp hl (ph := .rstPres)
      (ow := { ow with s1 := (tr (durCycles p p.tRstl + durCycles p p.tMsp - 1)).sample.ow })
      (d := durCycles p p.tPres) (by decide) hbusy rfl hrecEnd hn
  refine ⟨fun k hk => ?_, ?_⟩
  · rcases Nat.lt_or_ge k (durCycles p p.tRstl) with hk1 | hk1
    · have hnow := hlow k hk1
      rw [Nat.zero_add] at hnow
      rw [hnow, if_pos hk1]
      exact ⟨rfl, rfl⟩
    · rw [if_neg (Nat.not_lt.2 hk1)]
      obtain ⟨y, rfl⟩ := Nat.exists_eq_add_of_le hk1
      rcases Nat.lt_or_ge y (durCycles p p.tMsp) with hy | hy
      · rw [hrec y hy]
        exact ⟨rfl, rfl⟩
      · obtain ⟨z, rfl⟩ := Nat.exists_eq_add_of_le hy
        rw [← Nat.add_assoc, hpres z (by omega)]
        exact ⟨rfl, rfl⟩
  · rw [hpresEnd]
    rfl

end

/-- R132: the one sample of a READ_BIT, zero-extended. -/
theorem setShiftBit_zero (b : Bool) : setShiftBit 0x00 0 b = if b then 0x01 else 0x00 := by cases b <;> rfl

/-! ## The obligations -/

/-- Settles O39: after `k` cycles `L - k` are left, and the last one is that of the finish. -/
theorem timedOperationLastsItsLength : Obligations.TimedOperationLastsItsLength := by
  intro op data s tr hop hl hidle hexec hrun
  obtain ⟨how, hp⟩ := exec_instrOfOp_idle hidle hexec
  rw [acceptOp_of_timed _ hop] at how
  have hinv : OneWireInv s.params (tr 0).ow := how ▸ acceptTimed_inv hl hop data s.ow
  have hlen : cyclesLeft s.params (tr 0).ow = opLen s.params data op := how ▸ cyclesLeft_acceptTimed _ hop data s.ow
  have hleft := fun k hk => hrun.cyclesLeft_eq hp hl hinv hlen (k := k) hk hk
  have hpos : 0 < opLen s.params data op := by
    have huse := cyclesLeft_owNext hinv (how ▸ rfl) true
    omega
  obtain ⟨hinvEnd, hleftEnd⟩ := hleft _ (le_refl _)
  refine ⟨fun k hk => ?_, hinvEnd.idle_of_cyclesLeft (by omega), ?_⟩
  · obtain ⟨-, hleftk⟩ := hleft k hk.le
    exact busy_of_cyclesLeft (p := s.params) (by omega)
  · obtain ⟨m, hm⟩ : ∃ m, opLen s.params data op = m + 1 := ⟨_, (Nat.sub_add_cancel hpos).symm⟩
    obtain ⟨hinvLast, hleftLast⟩ := hleft m (by omega)
    obtain ⟨hr, hs⟩ := hrun m (by omega)
    rw [hm]
    exact step_flag_raised hr hs (e := .owDone) (owFinishes_of_cyclesLeft_one hl hinvLast (by omega))

/-- Settles O40: `Run.reset` gives the role, the pending result and the two samples; the outputs follow the role. -/
theorem resetRunsItsSequence : Obligations.ResetRunsItsSequence := by
  intro data s tr hl hidle hexec hrun low rec_
  obtain ⟨how, hp⟩ := exec_instrOfOp_idle (op := .reset) hidle hexec
  obtain ⟨hcycles, hresult⟩ := hrun.reset hp hl
    (ow := { s.ow with busy := true, op := .reset, bit := 0, shift := 0x00, result := .none }) rfl how (le_refl _)
  have hlowLen : low ≤ resetLen s.params := by
    rw [resetLen]
    omega
  refine ⟨fun k hk => ?_, fun k hge hk => ?_, fun k hk => ?_, hresult⟩
  · obtain ⟨hrole, -⟩ := hcycles k (hk.trans_le hlowLen)
    rw [State.owOe, State.owO, hrole.trans (if_pos hk)]
    exact ⟨rfl, rfl⟩
  · obtain ⟨hrole, -⟩ := hcycles k hk
    rw [State.owOe, hrole.trans (if_neg (Nat.not_lt.2 hge))]
    rfl
  · obtain ⟨-, hnone⟩ := hcycles k hk
    exact hnone

/-- Settles O43: the one slot ends in the finish, and its sample stands in bit 0 of a cleared `ow_shift`. -/
theorem readBitPublishesItsSample : Obligations.ReadBitPublishesItsSample := by
  intro data s tr hl hidle hexec hrun
  obtain ⟨how, hp⟩ := exec_instrOfOp_idle (op := .readBit) hidle hexec
  obtain ⟨-, hend⟩ := hrun.readSlot hp hl (k := 0)
    (ow := { s.ow with busy := true, op := .readBit, bit := 0, shift := 0x00 }) rfl how (Nat.zero_add _).le
  rw [if_neg (by simp [moreBits]), Nat.zero_add, Nat.zero_add] at hend
  have hrdata : (tr (readSlotLen s.params)).ow.rdata =
      setShiftBit 0x00 0 (tr (readSampleTime s.params)).sample.ow := by
    rw [hend]
    rfl
  exact hrdata.trans (setShiftBit_zero _)

end Sys2Proof.Machine
end

section
/-! The tick generator and the button bank (41_tick_debounce.md R146 to R148, R152, R158, R160 to R163): what a beat and a
cycle without one make of the divider and of every beat counter, the beats along a run, and the presses of one cycle. -/

namespace Sys2Proof.Machine

open Sys2Proof

/-! ## The beat and the divider -/

/-- R146: a beat is a cycle of the enabled tick in which the divider stands at its last count. -/
theorem beat_iff (s : State) : beat s = true ↔ s.tickEn = true ∧ s.tick.div = s.params.slotCycles - 1 := by
  simp [beat]

/-- R147: a disabled tick makes no beat. -/
theorem beat_of_disabled {s : State} (hen : s.tickEn = false) : beat s = false := by
  simp [beat, hen]

theorem tickNext_of_beat {s : State} (hb : beat s = true) : tickNext s = { div := 0, beatCnt := s.tick.beatCnt + 1 } := by
  simp [tickNext, hb]

theorem tickNext_of_no_beat {s : State} (hen : s.tickEn = true) (hb : beat s = false) :
    tickNext s = { div := s.tick.div + 1, beatCnt := s.tick.beatCnt } := by
  simp [tickNext, hen, hb]

theorem tickNext_of_disabled {s : State} (hen : s.tickEn = false) : tickNext s = { div := 0, beatCnt := s.tick.beatCnt } := by
  simp [tickNext, hen, beat_of_disabled hen]

/-- R146: the enabled divider counts modulo `SLOT_CYCLES`. -/
theorem div_tickNext_eq_mod {s : State} (hen : s.tickEn = true) (hrange : s.tick.div < s.params.slotCycles) :
    (tickNext s).div = (s.tick.div + 1) % s.params.slotCycles := by
  cases hb : beat s with
  | true =>
    obtain ⟨-, hlast⟩ := (beat_iff s).1 hb
    rw [tickNext_of_beat hb, hlast, Nat.sub_add_cancel (by omega), Nat.mod_self]
  | false =>
    have hlast : s.tick.div ≠ s.params.slotCycles - 1 := fun hlast => by simp [(beat_iff s).2 ⟨hen, hlast⟩] at hb
    rw [tickNext_of_no_beat hen hb, Nat.mod_eq_of_lt (by omega)]

/-- R205: no cycle but a beat raises TICK_IF. -/
theorem exec_tick_of_no_beat {i : Instr} {s t : State} (h : exec i s = .next t) (hb : beat s = false)
    (ht : t.flag .tick = true) : s.flag .tick = true :=
  exec_flag_of_not_raised h (e := .tick) hb nofun ht

/-- R175: while the tick is disabled the transmitter is held in the last gap slot; only the carrier generator runs on. -/
theorem txNext_of_disabled {s : State} (hen : s.tickEn = false) :
    txNext s =
      { slot := s.params.framePeriod - 1, snap := s.tx.snap, frameActive := false, transmit := false,
        carCnt := (carrierNext s).1, carPhase := (carrierNext s).2 } :=
  if_neg (Bool.eq_false_iff.1 hen)

/-- R195, R199: only a publish and a beat write the peer state. -/
theorem peerNext_of_no_beat {s : State} (hb : beat s = false) (hpub : rxPublishes s = false) : peerNext s = s.peer := by
  simp [peerNext, hpub, hb]

/-! ## The beats along a run -/

/-- A cycle without `rst` advances the tick generator by its own rules, whatever the access. -/
theorem step_tick {s t : State} (hr : s.rst = false) (h : step s = .next t) : t.tick = tickNext s := by
  obtain ⟨-, ⟨hr', -⟩ | ⟨-, -, rfl⟩ | ⟨-, op, i, -, -, hi⟩⟩ := step_cases h
  · simp [hr] at hr'
  · rfl
  · obtain ⟨-, htick, -⟩ := exec_units hi
    exact htick

/-- R146: while the tick stays enabled, a divider that starts at 0 holds the number of the cycle modulo `SLOT_CYCLES`. -/
theorem Run.div_eq_mod {tr : Nat → State} {n : Nat} (hrun : Run tr n) {c : Nat} (hc : (tr 0).params.slotCycles = c)
    (hpos : 0 < c) (hstart : (tr 0).tick.div = 0) (hen : ∀ k, k < n → (tr k).tickEn = true) {k : Nat} (hk : k ≤ n) :
    (tr k).tick.div = k % c := by
  induction k with
  | zero => rw [hstart, Nat.zero_mod]
  | succ k ih =>
    obtain ⟨hr, hs⟩ := hrun k hk
    have hslot : (tr k).params.slotCycles = c := by rw [hrun.params (Nat.le_of_lt hk), hc]
    have hdiv : (tr k).tick.div = k % c := ih (Nat.le_of_lt hk)
    have hrange : (tr k).tick.div < (tr k).params.slotCycles := by
      rw [hdiv, hslot]
      exact Nat.mod_lt k hpos
    rw [step_tick hr hs, div_tickNext_eq_mod (hen k hk) hrange, hdiv, hslot, Nat.mod_add_mod]

/-! ## Counters that a beat decays -/

/-- R152, R163: `decr` is the natural numbers' own subtraction, which stops at 0. -/
theorem toNat_decr (x : Word) : (decr x).toNat = x.toNat - 1 := by
  unfold decr
  split
  · simp_all
  · bv_omega

/-- R152: the decayed debounce counter, as the number it holds. -/
theorem eq_toNat_dbDecayed_iff (s : State) (k : Fin 4) (d : Nat) :
    d = (dbDecayed s k).toNat ↔
      (beat s = true → d = (quadGet s.btn.db k).toNat - 1) ∧ (¬ beat s = true → d = (quadGet s.btn.db k).toNat) := by
  cases hb : beat s <;> simp [dbDecayed, hb, toNat_decr]

theorem dbDecayed_of_no_beat {s : State} (hb : beat s = false) (k : Fin 4) : dbDecayed s k = quadGet s.btn.db k := by
  simp [dbDecayed, hb]

theorem holdDecayed_of_no_beat {s : State} (hb : beat s = false) : holdDecayed s = s.btn.hold := by
  simp [holdDecayed, hb]

theorem localDecayed_of_no_beat {s : State} (hb : beat s = false) : localDecayed s = s.btn.localVal := by
  simp [localDecayed, hb]

theorem toNat_holdDecayed_of_beat {s : State} (hb : beat s = true) : (holdDecayed s).toNat = s.btn.hold.toNat - 1 := by
  simp [holdDecayed, hb, toNat_decr]

/-- R163: in a beat the local value collapses where the decayed hold counter is 0. -/
theorem localDecayed_of_beat {s : State} (hb : beat s = true) :
    localDecayed s = if s.btn.hold.toNat - 1 = 0 then 0 else s.btn.localVal := by
  rw [← toNat_holdDecayed_of_beat hb]
  rw [localDecayed, if_pos hb]
  exact if_congr BitVec.toNat_eq rfl rfl

/-! ## The presses of one cycle -/

/-- R158: a press is an edge to the active level. -/
theorem press_iff (s : State) (k : Fin 4) :
    press s k = true ↔
      if s.params.btnActiveLow = true then s.btn.prev.getLsbD k = true ∧ s.sample.btn.getLsbD k = false
      else s.btn.prev.getLsbD k = false ∧ s.sample.btn.getLsbD k = true := by
  unfold press
  split <;> simp

/-- R160: honoured are the presses of an enabled bank whose decayed counter is 0. -/
theorem honoured_iff (s : State) (k : Fin 4) :
    honoured s k = true ↔ s.btnEn = true ∧ press s k = true ∧ 0 = (dbDecayed s k).toNat := by
  have hzero : dbDecayed s k = 0 ↔ 0 = (dbDecayed s k).toNat := BitVec.toNat_eq.trans eq_comm
  simp only [honoured, Bool.and_eq_true, and_assoc, beq_iff_eq, hzero]

theorem anyHonoured_iff (s : State) : anyHonoured s = true ↔ ∃ k, honoured s k = true := by
  simp [anyHonoured, Fin.exists_fin_succ, or_assoc]

theorem anyHonoured_eq_false_iff (s : State) : anyHonoured s = false ↔ ∀ k, ¬ honoured s k = true := by
  rw [← Bool.not_eq_true, anyHonoured_iff, not_exists]

/-- R161, R162: the identity is one more than the number of the lowest honoured button. -/
theorem honouredIdentity_of_lowest {s : State} {k : Fin 4} (hk : honoured s k = true)
    (hlow : ∀ j, j < k → ¬ honoured s j = true) : honouredIdentity s = BitVec.ofNat 4 (k + 1) := by
  unfold honouredIdentity
  fin_cases k
  · exact if_pos hk
  · rw [if_neg (hlow 0 (by decide))]
    exact if_pos hk
  · rw [if_neg (hlow 0 (by decide)), if_neg (hlow 1 (by decide))]
    exact if_pos hk
  · rw [if_neg (hlow 0 (by decide)), if_neg (hlow 1 (by decide)), if_neg (hlow 2 (by decide))]
    rfl

/-! ## The button bank -/

theorem db_buttonsNext_of_honoured {s : State} {k : Fin 4} (h : honoured s k = true) :
    quadGet (buttonsNext s).db k = BitVec.ofNat 16 s.params.debounceWindow :=
  (quadGet_quadOf _ k).trans (if_pos h)

theorem db_buttonsNext_of_not_honoured {s : State} {k : Fin 4} (h : ¬ honoured s k = true) :
    quadGet (buttonsNext s).db k = dbDecayed s k :=
  (quadGet_quadOf _ k).trans (if_neg h)

theorem hold_buttonsNext_of_honoured {s : State} (h : anyHonoured s = true) :
    (buttonsNext s).hold = BitVec.ofNat 16 s.params.holdWindow :=
  if_pos h

theorem localVal_buttonsNext_of_honoured {s : State} (h : anyHonoured s = true) :
    (buttonsNext s).localVal = honouredIdentity s :=
  if_pos h

theorem hold_buttonsNext_of_none {s : State} (h : anyHonoured s = false) : (buttonsNext s).hold = holdDecayed s :=
  if_neg (Bool.eq_false_iff.1 h)

theorem localVal_buttonsNext_of_none {s : State} (h : anyHonoured s = false) : (buttonsNext s).localVal = localDecayed s :=
  if_neg (Bool.eq_false_iff.1 h)

/-! ## The obligations -/

/-- Settles O48: the two rules of the divider, and a beat's flag, which no other cycle raises. -/
theorem tickDividerMakesBeats : Obligations.TickDividerMakesBeats := by
  intro i s
  obtain ⟨t, ht⟩ := exec_completes i s
  obtain ⟨-, htick, -⟩ := exec_units ht
  refine ⟨t, ht, fun hen hlast => ?_, fun hen hnot => ?_⟩
  · have hb : beat s = true := (beat_iff s).2 ⟨hen, hlast⟩
    rw [htick, tickNext_of_beat hb]
    exact ⟨rfl, rfl, exec_flag_raised ht (e := .tick) hb⟩
  · have hb : beat s = false := Bool.eq_false_iff.2 fun hb => hnot ((beat_iff s).1 hb).2
    rw [htick, tickNext_of_no_beat hen hb]
    exact ⟨rfl, rfl, exec_tick_of_no_beat ht hb⟩

/-- Settles O49: without a beat a counter changes only by a press honoured or a frame published. -/
theorem disabledTickFreezes : Obligations.DisabledTickFreezes := by
  intro i s hen
  have hb : beat s = false := beat_of_disabled hen
  obtain ⟨t, ht⟩ := exec_completes i s
  obtain ⟨-, htick, hbtn, htx, -, hpeer, -⟩ := exec_units ht
  refine ⟨hb, t, ht, htick.trans (tickNext_of_disabled hen), exec_tick_of_no_beat ht hb, ?_, ?_, ?_, ?_,
    fun k hk => ?_, fun hnone => ?_, fun hpub => ?_⟩
  case refine_1 | refine_2 | refine_3 | refine_4 => rw [htx, txNext_of_disabled hen]
  case refine_5 => rw [hbtn, db_buttonsNext_of_not_honoured (Bool.eq_false_iff.1 hk), dbDecayed_of_no_beat hb]
  case refine_6 =>
    rw [hbtn, hold_buttonsNext_of_none hnone, localVal_buttonsNext_of_none hnone]
    exact ⟨holdDecayed_of_no_beat hb, localDecayed_of_no_beat hb⟩
  case refine_7 => rw [hpeer, peerNext_of_no_beat hb hpub]

/-- Settles O50: the write's cycle still ran with the tick disabled, so the divider starts at 0 and holds `k` modulo
`SLOT_CYCLES` in cycle `k`. -/
theorem beatsComeEverySlotCycles : Obligations.BeatsComeEverySlotCycles := by
  intro s v tr n hl hoff _ hexec hrun hen
  obtain ⟨hparams, htick, -⟩ := exec_units hexec
  have hstart : (tr 0).tick.div = 0 := by rw [htick, tickNext_of_disabled hoff]
  obtain ⟨c, hc⟩ : ∃ c, s.params.slotCycles = c + 1 := by
    unfold Params.Legal at hl
    exact ⟨s.params.slotCycles - 1, by omega⟩
  have hslot : (tr 0).params.slotCycles = c + 1 := by rw [hparams, hc]
  refine ⟨hstart, fun k hk => ?_⟩
  have hdiv : (tr k).tick.div = k % (c + 1) := hrun.div_eq_mod hslot (Nat.succ_pos c) hstart hen hk.le
  calc beat (tr k) = true
      ↔ (tr k).tick.div = (tr k).params.slotCycles - 1 := by rw [beat_iff, hen k hk, eq_self, true_and]
    _ ↔ k % (c + 1) = c := by rw [hdiv, hrun.params hk.le, hslot, Nat.add_sub_cancel]
    _ ↔ (k + 1) % (c + 1) = 0 := Nat.succ_mod_succ_eq_zero_iff.symm
    _ ↔ s.params.slotCycles ∣ k + 1 := by rw [hc, Nat.dvd_iff_mod_eq_zero]

/-- Settles O51: the statement's own terms are those of the model, the set `H` that of `honoured`; then each claim is a rule
of the bank. -/
theorem buttonBankHonoursPresses : Obligations.ButtonBankHonoursPresses := by
  intro i s beatNow pressed decayed inH
  have hbeat : beatNow ↔ beat s = true := (beat_iff s).symm
  have hdecayed : ∀ k d, decayed k d ↔ d = (dbDecayed s k).toNat := fun k d => by
    rw [eq_toNat_dbDecayed_iff, ← hbeat]
  have hin : ∀ k, inH k ↔ honoured s k = true := fun k => by
    rw [honoured_iff, press_iff, ← hdecayed]
    rfl
  have hnone : (∀ k, ¬ honoured s k = true) → anyHonoured s = false := (anyHonoured_eq_false_iff s).2
  obtain ⟨t, ht⟩ := exec_completes i s
  obtain ⟨-, -, hbtn, -⟩ := exec_units ht
  simp only [hin, hdecayed, hbeat]
  refine ⟨t, ht, ?_⟩
  rw [hbtn]
  refine ⟨rfl, fun k => ⟨fun hk => db_buttonsNext_of_honoured hk, fun hk => ?_⟩, fun k hk hlow => ?_, fun hex => ?_,
    fun hno => ⟨?_, fun hb => ?_, fun hb => ?_⟩⟩
  case refine_1 => rw [db_buttonsNext_of_not_honoured hk]
  case refine_2 =>
    rw [localVal_buttonsNext_of_honoured ((anyHonoured_iff s).2 ⟨k, hk⟩), honouredIdentity_of_lowest hk hlow]
  case refine_3 =>
    have hany : anyHonoured s = true := (anyHonoured_iff s).2 hex
    exact ⟨hold_buttonsNext_of_honoured hany, exec_flag_raised ht (e := .btn) hany⟩
  case refine_4 => exact exec_flag_of_not_raised ht (e := .btn) (hnone hno) nofun
  case refine_5 =>
    rw [hold_buttonsNext_of_none (hnone hno), localVal_buttonsNext_of_none (hnone hno)]
    exact ⟨toNat_holdDecayed_of_beat hb, localDecayed_of_beat hb⟩
  case refine_6 =>
    rw [hold_buttonsNext_of_none (hnone hno), localVal_buttonsNext_of_none (hnone hno)]
    have hb' : beat s = false := Bool.eq_false_iff.2 hb
    exact ⟨holdDecayed_of_no_beat hb', localDecayed_of_no_beat hb'⟩

end Sys2Proof.Machine
end

section
/-! The IR transmitter (42_ir_tx.md R169 to R177, R180): what a beat and a cycle without one make of the frame serializer, the
carrier generator of one cycle, and the slots of a whole frame interval along a run. -/

namespace Sys2Proof.Machine

open Sys2Proof

/-! ## The slot a beat begins -/

/-- R172: the slots with carrier are start, stop and the data slots whose bit, most significant first, is 0. -/
theorem slotCarrier_iff (q : Nat) (v : Nibble) :
    slotCarrier q v = true ↔ q = 0 ∨ q = 5 ∨ (1 ≤ q ∧ q ≤ 4 ∧ v.getLsbD (4 - q) = false) := by
  simp [slotCarrier, or_assoc, and_assoc]

theorem snapNext_of_start {s : State} (hq : nextSlot s = 0) : snapNext s = s.btn.localVal :=
  if_pos hq

theorem snapNext_of_later {s : State} (hq : nextSlot s ≠ 0) : snapNext s = s.tx.snap :=
  if_neg hq

/-- R171: a frame starts where the transmitter is enabled and the local value is not 0. -/
theorem frameActiveNext_of_start {s : State} (hq : nextSlot s = 0) :
    frameActiveNext s = true ↔ s.txEn = true ∧ s.btn.localVal ≠ 0 := by
  simp [frameActiveNext, hq]

theorem frameActiveNext_of_later {s : State} (hq : nextSlot s ≠ 0) : frameActiveNext s = s.tx.frameActive :=
  if_neg hq

/-! ## The transmitter in one cycle -/

theorem txNext_of_beat {s : State} (hb : beat s = true) :
    txNext s =
      { slot := nextSlot s, snap := snapNext s, frameActive := frameActiveNext s,
        transmit := frameActiveNext s && slotCarrier (nextSlot s) (snapNext s),
        carCnt := (carrierNext s).1, carPhase := (carrierNext s).2 } := by
  obtain ⟨hen, -⟩ := (beat_iff s).1 hb
  rw [txNext, if_pos hen, if_pos hb]

/-- R173: between beats of the enabled tick only the carrier generator runs. -/
theorem txNext_of_no_beat {s : State} (hen : s.tickEn = true) (hb : beat s = false) :
    txNext s = { s.tx with carCnt := (carrierNext s).1, carPhase := (carrierNext s).2 } := by
  rw [txNext, if_pos hen, if_neg (Bool.eq_false_iff.1 hb)]

/-- R170: no cycle but a beat writes the snapshot, with the tick enabled or not. -/
theorem snap_txNext_of_no_beat {s : State} (hb : beat s = false) : (txNext s).snap = s.tx.snap := by
  cases hen : s.tickEn with
  | true => rw [txNext_of_no_beat hen hb]
  | false => rw [txNext_of_disabled hen]

/-- R176: the carrier generator runs in every cycle, whatever the serializer does. -/
theorem carrier_txNext (s : State) : ((txNext s).carCnt, (txNext s).carPhase) = carrierNext s := by
  unfold txNext
  split
  · split <;> rfl
  · rfl

theorem carrierNext_of_silent {s : State} (h : s.tx.transmit = false) : carrierNext s = (0, true) :=
  if_neg (Bool.eq_false_iff.1 h)

theorem carrierNext_of_last {s : State} (h : s.tx.transmit = true) (hc : s.tx.carCnt = s.params.carrierHalfCycles - 1) :
    carrierNext s = (0, !s.tx.carPhase) := by
  rw [carrierNext, if_pos h, if_pos hc]

theorem carrierNext_of_counting {s : State} (h : s.tx.transmit = true)
    (hc : s.tx.carCnt ≠ s.params.carrierHalfCycles - 1) : carrierNext s = (s.tx.carCnt + 1, s.tx.carPhase) := by
  rw [carrierNext, if_pos h, if_neg hc]

/-! ## A slot of a frame -/

/-- The transmitter is in slot `k` of an active frame of value `v`. -/
structure Tx.InSlot (tx : Tx) (k : Nat) (v : Nibble) : Prop where
  slot : tx.slot = k
  snap : tx.snap = v
  frameActive : tx.frameActive = true
  transmit : tx.transmit = slotCarrier k v

theorem inSlot_txNext_of_beat {s : State} (hb : beat s = true) (hact : frameActiveNext s = true) :
    (txNext s).InSlot (nextSlot s) (snapNext s) := by
  rw [txNext_of_beat hb]
  exact ⟨rfl, rfl, hact, by rw [hact, Bool.true_and]⟩

/-- R170, R171: a beat into slot 0 latches the local value. -/
theorem inSlot_txNext_of_start {s : State} (hb : beat s = true) (hq : nextSlot s = 0) (hen : s.txEn = true)
    (hv : s.btn.localVal ≠ 0) : (txNext s).InSlot 0 s.btn.localVal := by
  have h := inSlot_txNext_of_beat hb ((frameActiveNext_of_start hq).2 ⟨hen, hv⟩)
  rwa [hq, snapNext_of_start hq] at h

/-- R169: a beat before the last slot takes the frame on to its next slot, with the value it was latched with. -/
theorem Tx.InSlot.txNext_of_beat {s : State} {k : Nat} {v : Nibble} (h : s.tx.InSlot k v) (hb : beat s = true)
    (hk : k + 1 < s.params.framePeriod) : (txNext s).InSlot (k + 1) v := by
  have hq : nextSlot s = k + 1 := by rw [nextSlot, h.slot, Nat.mod_eq_of_lt hk]
  have hlater : nextSlot s ≠ 0 := by omega
  have hnext := inSlot_txNext_of_beat hb ((frameActiveNext_of_later hlater).trans h.frameActive)
  rwa [hq, snapNext_of_later hlater, h.snap] at hnext

theorem Tx.InSlot.txNext_of_no_beat {s : State} {k : Nat} {v : Nibble} (h : s.tx.InSlot k v) (hen : s.tickEn = true)
    (hb : beat s = false) : (txNext s).InSlot k v := by
  rw [Machine.txNext_of_no_beat hen hb]
  exact ⟨h.slot, h.snap, h.frameActive, h.transmit⟩

/-! ## The frame along a run -/

/-- A cycle without `rst` advances the transmitter by its own rules, whatever the access. -/
theorem step_tx {s t : State} (hr : s.rst = false) (h : step s = .next t) : t.tx = txNext s := by
  obtain ⟨-, ⟨hr', -⟩ | ⟨-, -, rfl⟩ | ⟨-, op, i, -, -, hi⟩⟩ := step_cases h
  · simp [hr] at hr'
  · rfl
  · obtain ⟨-, -, -, htx, -⟩ := exec_units hi
    exact htx

theorem Run.tx_succ {tr : Nat → State} {n : Nat} (hrun : Run tr n) {k : Nat} (hk : k < n) :
    (tr (k + 1)).tx = txNext (tr k) := by
  obtain ⟨hr, hs⟩ := hrun k hk
  exact step_tx hr hs

/-- A run without its first cycle. -/
theorem Run.tail {tr : Nat → State} {n : Nat} (hrun : Run tr n) : Run (fun k => tr (k + 1)) (n - 1) :=
  fun k hk => hrun (k + 1) (by omega)

section
variable {tr : Nat → State} {n c : Nat} (hrun : Run tr n) (hc : (tr 0).params.slotCycles = c) (hpos : 0 < c)
  (hen : ∀ k, k < n → (tr k).tickEn = true) (hb : beat (tr 0) = true)
include hrun hc hpos hen hb

/-- R146: counted from a beat, the beats of the enabled tick are the multiples of `SLOT_CYCLES`. -/
theorem Run.beat_iff_dvd {k : Nat} (hk : k < n) : beat (tr k) = true ↔ c ∣ k := by
  cases k with
  | zero => simp [hb]
  | succ k =>
    obtain ⟨hr, hs⟩ := hrun 0 (by omega)
    have hstart : (tr 1).tick.div = 0 := by rw [step_tick hr hs, tickNext_of_beat hb]
    have hc1 : (tr 1).params.slotCycles = c := by rw [step_params hs, hc]
    have hdiv : (tr (k + 1)).tick.div = k % c :=
      hrun.tail.div_eq_mod hc1 hpos hstart (fun j hj => hen (j + 1) (by omega)) (by omega)
    obtain ⟨d, rfl⟩ : ∃ d, c = d + 1 := ⟨c - 1, by omega⟩
    calc beat (tr (k + 1)) = true
        ↔ k % (d + 1) = d := by
          rw [beat_iff, hen _ hk, eq_self, true_and, hdiv, hrun.params hk.le, hc, Nat.add_sub_cancel]
      _ ↔ (k + 1) % (d + 1) = 0 := Nat.succ_mod_succ_eq_zero_iff.symm
      _ ↔ d + 1 ∣ k + 1 := (Nat.dvd_iff_mod_eq_zero).symm

/-- R173, R180: the frame is in slot `j / SLOT_CYCLES` in cycle `j` after the beat that began it, as far as its interval of P
slots goes. -/
theorem Run.inSlot {v : Nibble} (hn : n = (tr 0).params.framePeriod * c) (hstart : (txNext (tr 0)).InSlot 0 v) {j : Nat}
    (hj : j < n) : (tr (j + 1)).tx.InSlot (j / c) v := by
  rw [hrun.tx_succ hj]
  induction j with
  | zero => rwa [Nat.zero_div]
  | succ j ih =>
    have hnow : (tr (j + 1)).tx.InSlot (j / c) v := by
      rw [hrun.tx_succ (by omega)]
      exact ih (by omega)
    have hbeat : beat (tr (j + 1)) = true ↔ c ∣ j + 1 := hrun.beat_iff_dvd hc hpos hen hb hj
    by_cases hdvd : c ∣ j + 1
    · have hlt : (j + 1) / c < (tr 0).params.framePeriod := (Nat.div_lt_iff_lt_mul hpos).2 (hn ▸ hj)
      rw [Nat.succ_div_of_dvd hdvd] at hlt ⊢
      exact hnow.txNext_of_beat (hbeat.2 hdvd) (by rwa [hrun.params hj.le])
    · rw [Nat.succ_div_of_not_dvd hdvd]
      exact hnow.txNext_of_no_beat (hen _ hj) (Bool.eq_false_iff.2 (mt hbeat.1 hdvd))

end

/-! ## The obligations -/

/-- Settles O52: the beat's action in slot 0 and in a later slot, and the cycles between beats. -/
theorem transmitterAdvancesInBeats : Obligations.TransmitterAdvancesInBeats := by
  intro i s
  obtain ⟨t, ht⟩ := exec_completes i s
  obtain ⟨-, -, -, htx, -⟩ := exec_units ht
  refine ⟨t, ht, ?_⟩
  rw [htx]
  refine ⟨fun hen hlast => ?_, fun hen hnot => ?_, fun hnot => ?_⟩
  case refine_1 =>
    rw [txNext_of_beat ((beat_iff s).2 ⟨hen, hlast⟩)]
    refine ⟨rfl, fun hq => ⟨snapNext_of_start hq, frameActiveNext_of_start hq⟩,
      fun hq => ⟨snapNext_of_later hq, frameActiveNext_of_later hq⟩, ?_⟩
    rw [Bool.and_eq_true, slotCarrier_iff]
    rfl
  case refine_2 =>
    rw [txNext_of_no_beat hen (Bool.eq_false_iff.2 fun hb => hnot ((beat_iff s).1 hb).2)]
    exact ⟨rfl, rfl, rfl⟩
  case refine_3 => exact snap_txNext_of_no_beat (Bool.eq_false_iff.2 fun hb => hnot ((beat_iff s).1 hb))

/-- Settles O53: the emitter's output is its definition; each clause is a branch of the carrier generator. -/
theorem carrierTogglesWhileTransmitting : Obligations.CarrierTogglesWhileTransmitting := by
  intro i s
  obtain ⟨t, ht⟩ := exec_completes i s
  obtain ⟨-, -, -, htx, -⟩ := exec_units ht
  have hcar : (t.tx.carCnt, t.tx.carPhase) = carrierNext s := htx ▸ carrier_txNext s
  exact ⟨rfl, t, ht, fun h => Prod.ext_iff.1 (hcar.trans (carrierNext_of_silent h)),
    fun h hc => Prod.ext_iff.1 (hcar.trans (carrierNext_of_last h hc)),
    fun h hc => Prod.ext_iff.1 (hcar.trans (carrierNext_of_counting h hc))⟩

/-- Settles O54: the beat latches the local value, and cycle `k` × `SLOT_CYCLES` + `x` after it lies in slot `k`. -/
theorem transmitterSendsTheLatchedFrame : Obligations.TransmitterSendsTheLatchedFrame := by
  intro tr hl htxEn hb hq hv hrun hen k x hk hx
  have hpos : 0 < (tr 0).params.slotCycles := by omega
  have hj : k * (tr 0).params.slotCycles + x < (tr 0).params.framePeriod * (tr 0).params.slotCycles :=
    calc k * (tr 0).params.slotCycles + x
        < (k + 1) * (tr 0).params.slotCycles := by rw [Nat.succ_mul]; omega
      _ ≤ (tr 0).params.framePeriod * (tr 0).params.slotCycles := Nat.mul_le_mul_right _ hk
  have hslot := hrun.inSlot rfl hpos hen hb rfl (inSlot_txNext_of_start hb hq htxEn hv) hj
  have hdiv : (k * (tr 0).params.slotCycles + x) / (tr 0).params.slotCycles = k := by
    rw [Nat.mul_comm k, Nat.mul_add_div hpos, Nat.div_eq_of_lt hx, Nat.add_zero]
  rw [hdiv] at hslot
  rw [Nat.add_assoc, Nat.add_comm 1]
  exact ⟨hslot.slot, hslot.transmit⟩

end Sys2Proof.Machine
end

section
/-! The IR receiver and the peer state (43_ir_rx.md R182 to R191, R194 to R199, R201): what the edge detector, the sampling
timer and a firing make of the receiver, what a publish and a beat make of the peer, and a whole reception along a run. -/

namespace Sys2Proof.Machine

open Sys2Proof

/-! ## A firing's action -/

/-- The position that follows in the frame (R187): START, the four data bits, MARK, STOP, and IDLE again. -/
def RxState.next : RxState → RxState
  | .start => .b0
  | .b0 => .b1
  | .b1 => .b2
  | .b2 => .b3
  | .b3 => .mark
  | .mark => .stop
  | .stop | .idle => .idle

/-- The accumulator after a firing that reads `r`: the four data firings shift it in (R189), the others leave it. -/
def RxState.accAfter (acc : Nibble) (r : Bool) : RxState → Nibble
  | .b0 | .b1 | .b2 | .b3 => shiftIn acc r
  | .start | .mark | .stop | .idle => acc

/-- A firing that reads `r` goes on with the frame: START does where the level is active (R188), the data firings and MARK
always (R189, R190). -/
def RxState.goesOn (r : Bool) : RxState → Bool
  | .start => !r
  | .b0 | .b1 | .b2 | .b3 | .mark => true
  | .stop | .idle => false

/-- R186: a firing that goes on has a slot's time to the next one. -/
theorem rxFire_of_goesOn (p : Params) {r : Bool} {rx : Rx} (h : rx.state.goesOn r = true) :
    rxFire p r rx =
      { rx with state := rx.state.next, cnt := p.rxSlotCycles, acc := rx.state.accAfter rx.acc r } := by
  cases hst : rx.state <;> rw [hst] at h
  case idle | stop => exact absurd h Bool.false_ne_true
  case start =>
    obtain rfl : r = false := by simpa [RxState.goesOn] using h
    simp only [rxFire, hst]
    rfl
  all_goals
    simp only [rxFire, hst]
    rfl

/-- R191, R195: an abort and a publish leave the receiver alike, in IDLE with the accumulator kept. -/
theorem rxFire_of_not_goesOn (p : Params) {r : Bool} {rx : Rx} (hbusy : rx.state ≠ .idle) (h : rx.state.goesOn r = false) :
    rxFire p r rx = { rx with state := .idle, cnt := 0 } := by
  cases hst : rx.state <;> rw [hst] at h
  case idle => exact absurd hst hbusy
  case start =>
    obtain rfl : r = true := by simpa [RxState.goesOn] using h
    simp only [rxFire, hst]
    rfl
  case stop => simp only [rxFire, hst]
  all_goals exact absurd h.symm Bool.false_ne_true

theorem prev_rxFire (p : Params) (r : Bool) (rx : Rx) : (rxFire p r rx).prev = rx.prev := by
  by_cases hbusy : rx.state = .idle
  · simp only [rxFire, hbusy]
  · cases hon : rx.state.goesOn r with
    | true => rw [rxFire_of_goesOn p hon]
    | false => rw [rxFire_of_not_goesOn p hbusy hon]

/-- R189: `((rx_acc << 1) | r) & 0xF`. -/
theorem shiftIn_eq (acc : Nibble) (r : Bool) : shiftIn acc r = (acc <<< 1) ||| (if r then 1 else 0) := by
  cases r <;> revert acc <;> decide

/-! ## The receiver in one cycle -/

theorem rxNext_of_disabled {s : State} (hen : s.rxEn = false) :
    rxNext s = { prev := s.sample.ir, state := .idle, cnt := 0, acc := s.rx.acc } :=
  if_neg (Bool.eq_false_iff.1 hen)

theorem rxFall_iff (s : State) : rxFall s = true ↔ s.rx.prev = true ∧ s.sample.ir = false := by
  simp [rxFall]

theorem rxNext_of_fall {s : State} (hen : s.rxEn = true) (hidle : s.rx.state = .idle) (hfall : rxFall s = true) :
    rxNext s = { prev := s.sample.ir, state := .start, cnt := s.params.rxHalfCycles, acc := 0 } := by
  rw [rxNext, if_pos hen, if_pos hidle, if_pos hfall]

theorem rxNext_of_no_fall {s : State} (hen : s.rxEn = true) (hidle : s.rx.state = .idle) (hfall : ¬ rxFall s = true) :
    rxNext s = { s.rx with prev := s.sample.ir } := by
  rw [rxNext, if_pos hen, if_pos hidle, if_neg hfall]

theorem rxNext_of_counting {s : State} (hen : s.rxEn = true) (hbusy : s.rx.state ≠ .idle) (hcnt : 1 < s.rx.cnt) :
    rxNext s = { s.rx with prev := s.sample.ir, cnt := s.rx.cnt - 1 } := by
  rw [rxNext, if_pos hen, if_neg hbusy, if_pos hcnt]

theorem rxNext_of_firing {s : State} (hen : s.rxEn = true) (hbusy : s.rx.state ≠ .idle) (hcnt : s.rx.cnt ≤ 1) :
    rxNext s = rxFire s.params s.sample.ir { s.rx with prev := s.sample.ir } := by
  rw [rxNext, if_pos hen, if_neg hbusy, if_neg (Nat.not_lt.2 hcnt)]

/-- R182: the edge detector runs in every cycle. -/
theorem prev_rxNext (s : State) : (rxNext s).prev = s.sample.ir := by
  unfold rxNext
  split_ifs with hen hidle hfall hcnt
  · rfl
  · rfl
  · rfl
  · exact prev_rxFire _ _ _
  · rfl

theorem rxNext_of_goesOn {s : State} {st : RxState} (hen : s.rxEn = true) (hcnt : s.rx.cnt ≤ 1) (hst : s.rx.state = st)
    (hon : st.goesOn s.sample.ir = true) :
    rxNext s =
      { prev := s.sample.ir, state := st.next, cnt := s.params.rxSlotCycles, acc := st.accAfter s.rx.acc s.sample.ir } := by
  subst hst
  have hbusy : s.rx.state ≠ .idle := fun hidle => by simp [hidle, RxState.goesOn] at hon
  exact (rxNext_of_firing hen hbusy hcnt).trans (rxFire_of_goesOn _ hon)

theorem rxNext_of_not_goesOn {s : State} (hen : s.rxEn = true) (hbusy : s.rx.state ≠ .idle) (hcnt : s.rx.cnt ≤ 1)
    (hon : s.rx.state.goesOn s.sample.ir = false) :
    rxNext s = { prev := s.sample.ir, state := .idle, cnt := 0, acc := s.rx.acc } :=
  (rxNext_of_firing hen hbusy hcnt).trans (rxFire_of_not_goesOn _ hbusy hon)

/-! ## Publishes and aborts -/

theorem rxFires_iff (s : State) : rxFires s = true ↔ s.rxEn = true ∧ s.rx.state ≠ .idle ∧ s.rx.cnt ≤ 1 := by
  simp [rxFires, and_assoc]

theorem rxPublishes_iff (s : State) :
    rxPublishes s = true ↔ rxFires s = true ∧ s.rx.state = .stop ∧ s.sample.ir = true := by
  simp [rxPublishes, and_assoc]

theorem rxAborts_iff (s : State) :
    rxAborts s = true ↔ rxFires s = true ∧
      ((s.rx.state = .start ∧ s.sample.ir = true) ∨ (s.rx.state = .stop ∧ s.sample.ir = false)) := by
  simp [rxAborts]

theorem rxPublishes_of_no_firing {s : State} (h : rxFires s = false) : rxPublishes s = false := by
  simp [rxPublishes, h]

theorem rxAborts_of_no_firing {s : State} (h : rxFires s = false) : rxAborts s = false := by
  simp [rxAborts, h]

theorem rxFires_of_idle {s : State} (h : s.rx.state = .idle) : rxFires s = false := by
  simp [rxFires, h]

theorem rxFires_of_disabled {s : State} (h : s.rxEn = false) : rxFires s = false := by
  simp [rxFires, h]

/-! ## The peer state in one cycle -/

/-- R195, R196: a publish writes the peer state whatever the beat. -/
theorem peerNext_of_publish {s : State} (h : rxPublishes s = true) :
    peerNext s = { val := s.rx.acc, valid := true, age := 0 } :=
  if_pos h

/-- R198: without a publish only the beat's action writes the peer state. -/
theorem peerNext_of_no_publish {s : State} (h : rxPublishes s = false) :
    peerNext s = if beat s then peerBeat s else s.peer :=
  if_neg (Bool.eq_false_iff.1 h)

theorem age_peerBeat (s : State) : (peerBeat s).age = ageNext s := by
  unfold peerBeat
  split <;> rfl

theorem peerBeat_of_stale {s : State} (h : silence s.params < ageNext s) :
    peerBeat s = { val := 0, valid := false, age := ageNext s } :=
  if_pos h

theorem peerBeat_of_fresh {s : State} (h : ageNext s ≤ silence s.params) : peerBeat s = { s.peer with age := ageNext s } :=
  if_neg (Nat.not_lt.2 h)

/-- R201: the peer state forced to "no state", at the age where it stays. -/
def noState (p : Params) : Peer := { val := 0, valid := false, age := ageMax p }

/-- R201: the beat's action is idempotent on "no state". -/
theorem peerBeat_of_noState {s : State} (h : s.peer = noState s.params) : peerBeat s = noState s.params := by
  have hage : ageNext s = ageMax s.params := by
    rw [ageNext, h]
    exact Nat.min_eq_right (Nat.le_succ _)
  have hstale : silence s.params < ageNext s := by
    rw [hage]
    exact Nat.lt_succ_self _
  rw [peerBeat_of_stale hstale, hage]
  rfl

theorem peerNext_of_noState {s : State} (h : s.peer = noState s.params) (hpub : rxPublishes s = false) :
    peerNext s = noState s.params := by
  rw [peerNext_of_no_publish hpub]
  split
  · exact peerBeat_of_noState h
  · exact h

/-! ## What an access leaves to the receiver -/

/-- R195, R198: no cycle but a publish raises RX_IF, and it leaves the peer state to the beat. -/
theorem exec_of_no_publish {i : Instr} {s t : State} (h : exec i s = .next t) (hpub : rxPublishes s = false) :
    t.peer = (if beat s then peerBeat s else s.peer) ∧ (t.flag .rx = true → s.flag .rx = true) := by
  obtain ⟨-, -, -, -, -, hpeer, -⟩ := exec_units h
  exact ⟨hpeer.trans (peerNext_of_no_publish hpub), exec_flag_of_not_raised h (e := .rx) hpub nofun⟩

/-- R191: no cycle but an abort raises RX_ERR. -/
theorem exec_of_no_abort {i : Instr} {s t : State} (h : exec i s = .next t) (habort : rxAborts s = false)
    (ht : t.flag .rxErr = true) : s.flag .rxErr = true :=
  exec_flag_of_not_raised h (e := .rxErr) habort nofun ht

/-! ## The receiver and the peer along a run -/

/-- A cycle without `rst` advances the receiver and the peer state by their own rules, whatever the access. -/
theorem step_rx_peer {s t : State} (hr : s.rst = false) (h : step s = .next t) : t.rx = rxNext s ∧ t.peer = peerNext s := by
  obtain ⟨-, ⟨hr', -⟩ | ⟨-, -, rfl⟩ | ⟨-, op, i, -, -, hi⟩⟩ := step_cases h
  · simp [hr] at hr'
  · exact ⟨rfl, rfl⟩
  · obtain ⟨-, -, -, -, hrx, hpeer, -⟩ := exec_units hi
    exact ⟨hrx, hpeer⟩

/-- The receiver is at position `st` of a frame, with `c` cycles up to and including its firing, and has accumulated `acc`. -/
structure Rx.Awaits (rx : Rx) (st : RxState) (c : Nat) (acc : Nibble) : Prop where
  state : rx.state = st
  cnt : rx.cnt = c
  acc : rx.acc = acc

section
variable {tr : Nat → State} {n : Nat} (hrun : Run tr n) (hen : ∀ k, k < n → (tr k).rxEn = true)
include hrun hen

/-- R185: the timer counts down to the firing. -/
theorem Run.rx_counts_down {k x : Nat} {st : RxState} {c : Nat} {acc : Nibble} (hst : st ≠ .idle)
    (h : (tr k).rx.Awaits st c acc) (hx : x < c) (hn : k + x ≤ n) : (tr (k + x)).rx.Awaits st (c - x) acc := by
  induction x with
  | zero => exact h
  | succ x ih =>
    have hnow := ih (by omega) (by omega)
    obtain ⟨hr, hs⟩ := hrun (k + x) hn
    obtain ⟨hrx, -⟩ := step_rx_peer hr hs
    have hbusy : (tr (k + x)).rx.state ≠ .idle := by rwa [hnow.state]
    have hcnt : 1 < (tr (k + x)).rx.cnt := by
      rw [hnow.cnt]
      omega
    rw [rxNext_of_counting (hen (k + x) hn) hbusy hcnt] at hrx
    rw [← Nat.add_assoc, hrx]
    exact ⟨hnow.state, congrArg (· - 1) hnow.cnt, hnow.acc⟩

/-- R184, R187: the START firing falls `RX_HALF_CYCLES` after the edge. -/
theorem Run.rx_first_firing (hl : (tr 0).params.Legal) (hidle : (tr 0).rx.state = .idle) (hfall : rxFall (tr 0) = true)
    (hn : (tr 0).params.rxHalfCycles < n) : (tr (tr 0).params.rxHalfCycles).rx.Awaits .start 1 0 := by
  obtain ⟨m, hm⟩ : ∃ m, (tr 0).params.rxHalfCycles = m + 1 := by
    unfold Params.Legal at hl
    exact ⟨(tr 0).params.rxHalfCycles - 1, by omega⟩
  obtain ⟨hr, hs⟩ := hrun 0 (by omega)
  obtain ⟨hrx, -⟩ := step_rx_peer hr hs
  rw [rxNext_of_fall (hen 0 (by omega)) hidle hfall, hm] at hrx
  have hstart : (tr 1).rx.Awaits .start (m + 1) 0 := by
    rw [hrx]
    exact ⟨rfl, rfl, rfl⟩
  have hfiring := hrun.rx_counts_down hen (x := m) (st := .start) nofun hstart (Nat.lt_succ_self m) (by omega)
  rwa [Nat.add_sub_cancel_left, Nat.add_comm 1 m, ← hm] at hfiring

/-- R186, R187: after a firing that goes on, the next one comes a slot later. -/
theorem Run.rx_next_firing (hl : (tr 0).params.Legal) {k k' : Nat} {st : RxState} {acc : Nibble}
    (h : (tr k).rx.Awaits st 1 acc) (hon : st.goesOn (tr k).sample.ir = true) (hk' : k + (tr 0).params.rxSlotCycles = k')
    (hn : k' ≤ n) : (tr k').rx.Awaits st.next 1 (st.accAfter acc (tr k).sample.ir) := by
  obtain ⟨m, hm⟩ : ∃ m, (tr 0).params.rxSlotCycles = m + 1 := by
    unfold Params.Legal at hl
    exact ⟨(tr 0).params.rxSlotCycles - 1, by omega⟩
  have hk : k < n := by omega
  obtain ⟨hr, hs⟩ := hrun k hk
  obtain ⟨hrx, -⟩ := step_rx_peer hr hs
  rw [rxNext_of_goesOn (hen k hk) h.cnt.le h.state hon, hrun.params hk.le, hm] at hrx
  have hwaits : (tr (k + 1)).rx.Awaits st.next (m + 1) (st.accAfter acc (tr k).sample.ir) := by
    rw [hrx, h.acc]
    exact ⟨rfl, rfl, rfl⟩
  have hnext : st.next ≠ .idle := by
    intro hidle
    cases st <;> simp [RxState.next, RxState.goesOn] at hidle hon
  have hfiring := hrun.rx_counts_down hen (x := m) hnext hwaits (Nat.lt_succ_self m) (by omega)
  rwa [Nat.add_sub_cancel_left, Nat.add_assoc, Nat.add_comm 1 m, ← hm, hk'] at hfiring

/-- R194, R195: a STOP firing that reads idle publishes the accumulator. -/
theorem Run.rx_publishes {k : Nat} {acc : Nibble} (h : (tr k).rx.Awaits .stop 1 acc) (hr : (tr k).sample.ir = true)
    (hk : k < n) :
    (tr (k + 1)).peer = { val := acc, valid := true, age := 0 } ∧ (tr (k + 1)).rx.state = .idle ∧
    (tr (k + 1)).flag .rx = true := by
  obtain ⟨hrst, hs⟩ := hrun k hk
  obtain ⟨hrx, hpeer⟩ := step_rx_peer hrst hs
  have hbusy : (tr k).rx.state ≠ .idle := by
    rw [h.state]
    decide
  have hpub : rxPublishes (tr k) = true :=
    (rxPublishes_iff _).2 ⟨(rxFires_iff _).2 ⟨hen k hk, hbusy, h.cnt.le⟩, h.state, hr⟩
  refine ⟨?_, ?_, step_flag_raised hrst hs (e := .rx) hpub⟩
  · rw [hpeer, peerNext_of_publish hpub, h.acc]
  · rw [hrx, rxNext_of_not_goesOn (hen k hk) hbusy h.cnt.le (by rw [h.state]; rfl)]

end

/-- R189: four samples shifted in stand most significant first. -/
theorem shiftIn_four (a b c d : Bool) :
    shiftIn (shiftIn (shiftIn (shiftIn 0 a) b) c) d =
      BitVec.ofBool a ++ BitVec.ofBool b ++ BitVec.ofBool c ++ BitVec.ofBool d := by
  revert a b c d
  decide

/-! ## The obligations -/

/-- Settles O58: the seven firings of R187, one after the other. -/
theorem receiverPublishesTheSampledFrame : Obligations.ReceiverPublishesTheSampledFrame := by
  intro tr half slot r hl hidle hprev hlow hrun hen hstart hstop
  have hfire0 : (tr (half + 0 * slot)).rx.Awaits .start 1 0 := by
    rw [Nat.zero_mul]
    exact hrun.rx_first_firing hen hl hidle ((rxFall_iff _).2 ⟨hprev, hlow⟩) (by omega)
  have hfire1 : (tr (half + 1 * slot)).rx.Awaits .b0 1 0 :=
    hrun.rx_next_firing hen hl hfire0 (congrArg not hstart) (by omega) (by omega)
  have hfire2 : (tr (half + 2 * slot)).rx.Awaits .b1 1 (shiftIn 0 (r 1)) :=
    hrun.rx_next_firing hen hl hfire1 rfl (by omega) (by omega)
  have hfire3 : (tr (half + 3 * slot)).rx.Awaits .b2 1 (shiftIn (shiftIn 0 (r 1)) (r 2)) :=
    hrun.rx_next_firing hen hl hfire2 rfl (by omega) (by omega)
  have hfire4 : (tr (half + 4 * slot)).rx.Awaits .b3 1 (shiftIn (shiftIn (shiftIn 0 (r 1)) (r 2)) (r 3)) :=
    hrun.rx_next_firing hen hl hfire3 rfl (by omega) (by omega)
  have hfire5 : (tr (half + 5 * slot)).rx.Awaits .mark 1
      (shiftIn (shiftIn (shiftIn (shiftIn 0 (r 1)) (r 2)) (r 3)) (r 4)) :=
    hrun.rx_next_firing hen hl hfire4 rfl (by omega) (by omega)
  have hfire6 : (tr (half + 6 * slot)).rx.Awaits .stop 1
      (shiftIn (shiftIn (shiftIn (shiftIn 0 (r 1)) (r 2)) (r 3)) (r 4)) :=
    hrun.rx_next_firing hen hl hfire5 rfl (by omega) (by omega)
  rw [shiftIn_four] at hfire6
  exact hrun.rx_publishes hen hfire6 hstop (Nat.lt_succ_self _)

/-- Settles O55: in IDLE no cycle is a firing. -/
theorem receiverStartsOnAFallingEdge : Obligations.ReceiverStartsOnAFallingEdge := by
  intro i s
  obtain ⟨t, ht⟩ := exec_completes i s
  obtain ⟨-, -, -, -, hrx, -⟩ := exec_units ht
  refine ⟨t, ht, hrx ▸ prev_rxNext s, fun hen hidle hprev hlow => ?_, fun hen hidle hno => ?_, fun hidle => ?_⟩
  · rw [hrx, rxNext_of_fall hen hidle ((rxFall_iff s).2 ⟨hprev, hlow⟩), hlow]
  · rw [hrx, rxNext_of_no_fall hen hidle (mt (rxFall_iff s).1 hno)]
  · have hfires : rxFires s = false := rxFires_of_idle hidle
    obtain ⟨hpeer, hif⟩ := exec_of_no_publish ht (rxPublishes_of_no_firing hfires)
    exact ⟨hif, exec_of_no_abort ht (rxAborts_of_no_firing hfires), hpeer⟩

/-- Settles O56: a disabled receiver never fires. -/
theorem disabledReceiverIsIdle : Obligations.DisabledReceiverIsIdle := by
  intro i s hen
  obtain ⟨t, ht⟩ := exec_completes i s
  obtain ⟨-, -, -, -, hrx, -⟩ := exec_units ht
  have hfires : rxFires s = false := rxFires_of_disabled hen
  obtain ⟨hpeer, hif⟩ := exec_of_no_publish ht (rxPublishes_of_no_firing hfires)
  exact ⟨t, ht, hrx.trans (rxNext_of_disabled hen), exec_of_no_abort ht (rxAborts_of_no_firing hfires), hif, hpeer⟩

/-- Settles O57: the statement's own terms are those of the model; a firing goes on with the frame, or it ends it as a publish
or an abort. -/
theorem receiverFiringsFollowTheFrame : Obligations.ReceiverFiringsFollowTheFrame := by
  intro i s hen hbusy shifted published aborted
  obtain ⟨t, ht⟩ := exec_completes i s
  obtain ⟨-, -, -, -, hrx, hpeer, -⟩ := exec_units ht
  have hfires : rxFires s = true ↔ s.rx.cnt ≤ 1 := (rxFires_iff s).trans (by simp [State.rxEn, hen, hbusy])
  have hpub : rxPublishes s = true ↔ published := by rw [rxPublishes_iff, hfires]
  have habort : rxAborts s = true ↔ aborted := by rw [rxAborts_iff, hfires]
  have hshift : shifted = shiftIn s.rx.acc s.sample.ir := (shiftIn_eq _ _).symm
  have hgoesOn : ∀ st : RxState, st.goesOn s.sample.ir = true → s.rx.cnt ≤ 1 → s.rx.state = st → t.rx =
      { prev := s.sample.ir, state := st.next, cnt := s.params.rxSlotCycles, acc := st.accAfter s.rx.acc s.sample.ir } :=
    fun st hon hcnt hst => hrx.trans (rxNext_of_goesOn hen hcnt hst hon)
  rw [hshift]
  refine ⟨t, ht, fun hcnt => hrx.trans (rxNext_of_counting hen hbusy hcnt), fun hcnt => ⟨fun hst hlow => ?_,
    hgoesOn .b0 rfl hcnt, hgoesOn .b1 rfl hcnt, hgoesOn .b2 rfl hcnt, hgoesOn .b3 rfl hcnt, hgoesOn .mark rfl hcnt⟩,
    fun hend => ?_, fun h => ?_, fun h => ?_, fun h => ?_, fun h => ?_⟩
  case refine_1 =>
    rw [hgoesOn .start (congrArg not hlow) hcnt hst, hlow]
    rfl
  case refine_2 =>
    obtain ⟨hcnt, hon⟩ : s.rx.cnt ≤ 1 ∧ s.rx.state.goesOn s.sample.ir = false := by
      obtain ⟨hcnt, hst, -⟩ | ⟨hcnt, ⟨hst, hr⟩ | ⟨hst, -⟩⟩ := hend
      · exact ⟨hcnt, by rw [hst]; rfl⟩
      · exact ⟨hcnt, by rw [hst, hr]; rfl⟩
      · exact ⟨hcnt, by rw [hst]; rfl⟩
    exact hrx.trans (rxNext_of_not_goesOn hen hbusy hcnt hon)
  case refine_3 =>
    exact ⟨hpeer.trans (peerNext_of_publish (hpub.2 h)), exec_flag_raised ht (e := .rx) (hpub.2 h)⟩
  case refine_4 => exact exec_of_no_publish ht (Bool.eq_false_iff.2 (mt hpub.1 h))
  case refine_5 => exact exec_flag_raised ht (e := .rxErr) (habort.2 h)
  case refine_6 => exact exec_of_no_abort ht (Bool.eq_false_iff.2 (mt habort.1 h))

/-- Settles O59. -/
theorem peerAgesInBeatsAndGoesStale : Obligations.PeerAgesInBeatsAndGoesStale := by
  intro i s
  obtain ⟨t, ht⟩ := exec_completes i s
  obtain ⟨-, -, -, -, -, hpeer, -⟩ := exec_units ht
  refine ⟨t, ht, fun hpub => hpeer.trans (peerNext_of_publish hpub), fun hpub hen hlast => ?_, fun hpub hno => ?_⟩
  · rw [hpeer, peerNext_of_no_publish hpub, if_pos ((beat_iff s).2 ⟨hen, hlast⟩), age_peerBeat]
    refine ⟨rfl, fun hstale => ?_, fun hfresh => ?_⟩
    · rw [peerBeat_of_stale hstale]
      exact ⟨rfl, rfl⟩
    · rw [peerBeat_of_fresh hfresh]
      exact ⟨rfl, rfl⟩
  · exact hpeer.trans (peerNext_of_no_beat (Bool.eq_false_iff.2 (mt (beat_iff s).1 hno)) hpub)

/-- Settles O60: a cycle without a publish keeps "no state", with a beat or without. -/
theorem stalePeerStaysUntilAPublish : Obligations.StalePeerStaysUntilAPublish := by
  intro tr n hrun _ h0 hpub k hk
  induction k with
  | zero => exact h0
  | succ k ih =>
    have hparams : (tr k).params = (tr 0).params := hrun.params (Nat.le_of_lt hk)
    have hnow : (tr k).peer = noState (tr k).params := hparams ▸ ih (Nat.le_of_lt hk)
    obtain ⟨hr, hs⟩ := hrun k hk
    obtain ⟨-, hpeer⟩ := step_rx_peer hr hs
    exact hpeer.trans (hparams ▸ peerNext_of_noState hnow (hpub k hk))

end Sys2Proof.Machine
end

section
/-! The flags and the interrupt lines (60_exceptions.md R205 to R211): what an access makes of each flag, and each line as
the flag of its event under an enable of CTRL. -/

namespace Sys2Proof.Machine

open Sys2Proof

/-! ## The flags after an access -/

/-- R207, R228: the reset state has no flag. -/
theorem flag_resetOf (p : Params) (e : Event) : (State.resetOf p).flag e = false := BitVec.getLsbD_zero

/-- R79: every flag after a write of IFG, as an access. -/
theorem exec_wrIfg_flag {v : Word} {s t : State} (h : exec (.wrIfg v) s = .next t) (e : Event) :
    t.flag e = (s.flag e && !v.getLsbD (eventBit e) || unitRaises s e) := by
  obtain rfl : ifgCycle s v = t := Host.Outcome.next.inj h
  exact ifgCycle_flag s v e

/-- R118, R205: a rejected command sets OW_CMD_ERR. -/
theorem exec_owCmdErr_of_rejected {i : Instr} {s t : State} (h : exec i s = .next t) (hw : writesOwCmd i = true)
    (hrej : s.ow.busy = true ∨ isCommand i = false) : t.flag .owCmdErr = true := by
  have hn : ∀ v, i ≠ .wrIfg v := by
    rintro v rfl
    exact Bool.false_ne_true hw
  rw [exec_flag h hn]
  rcases hrej with hrej | hrej <;> simp [hw, hrej]

/-- R207: a flag stays unless the host writes 1 to its bit. -/
theorem exec_flag_stays {i : Instr} {s t : State} (h : exec i s = .next t) {e : Event} (hs : s.flag e = true)
    (hkeep : ∀ v, i = .wrIfg v → v.getLsbD (eventBit e) = false) : t.flag e = true := by
  by_cases hi : ∃ v, i = .wrIfg v
  · obtain ⟨v, rfl⟩ := hi
    simp [exec_wrIfg_flag h, hs, hkeep v rfl]
  · simp [exec_flag h fun v h => hi ⟨v, h⟩, hs]

/-- R207, R209: a 1 written to its bit clears a flag that no unit raises in the cycle. -/
theorem exec_flag_cleared {v : Word} {s t : State} (h : exec (.wrIfg v) s = .next t) {e : Event}
    (hv : v.getLsbD (eventBit e) = true) (hu : unitRaises s e = false) : t.flag e = false := by
  simp [exec_wrIfg_flag h, hv, hu]

/-- R205, R207: a flag that is set after an access was set before it, or a unit raised it, or it is the error of a command
that was rejected. -/
theorem exec_flag_origin {i : Instr} {s t : State} (h : exec i s = .next t) {e : Event} (ht : t.flag e = true) :
    s.flag e = true ∨ unitRaises s e = true ∨
      (e = .owCmdErr ∧ writesOwCmd i = true ∧ (s.ow.busy = true ∨ isCommand i = false)) := by
  by_cases hi : ∃ v, i = .wrIfg v
  · obtain ⟨v, rfl⟩ := hi
    rw [exec_wrIfg_flag h, Bool.or_eq_true, Bool.and_eq_true] at ht
    exact ht.imp And.left .inl
  · simpa [exec_flag h fun v h => hi ⟨v, h⟩, or_assoc, and_assoc] using ht

/-! ## The interrupt lines -/

/-- The event whose flag drives a line (R210). -/
def IrqLine.event : IrqLine → Event
  | .tick => .tick
  | .ow => .owDone
  | .rx => .rx
  | .btn => .btn

/-- The bit of CTRL that enables a line: eight above its flag's bit in IFG (R54, R210). -/
def IrqLine.enableBit (l : IrqLine) : Nat := 8 + eventBit l.event

/-- R210: a line is its flag under its enable, in every state. -/
theorem irq_eq (s : State) (l : IrqLine) : s.irq l = (s.flag l.event && s.ctrl.getLsbD l.enableBit) := by cases l <;> rfl

/-- R54: CTRL stores the enable of every line. -/
theorem getLsbD_enableBit_and_ctrlMask (v : Word) (l : IrqLine) :
    (v &&& ctrlMask).getLsbD l.enableBit = v.getLsbD l.enableBit := by
  have hline : l.enableBit < 16 ∧ (l.enableBit < 4 ∨ 8 ≤ l.enableBit ∧ l.enableBit < 12) := by cases l <;> decide
  obtain ⟨hlt, hbit⟩ := hline
  rw [getLsbD_and_ctrlMask v hlt, decide_eq_true hbit, Bool.and_true]

/-- R78, R211: after a write of CTRL a line is its flag, a raise of the cycle included, under the new enable. -/
theorem ctrlCycle_irq (s : State) (v : Word) (l : IrqLine) :
    (ctrlCycle s v).irq l = ((s.flag l.event || unitRaises s l.event) && v.getLsbD l.enableBit) := by
  have hexec : exec (.wrCtrl v) s = .next (ctrlCycle s v) := rfl
  have hflag : (ctrlCycle s v).flag l.event = (s.flag l.event || unitRaises s l.event) := by
    simp [exec_flag hexec nofun, writesOwCmd]
  calc (ctrlCycle s v).irq l
      = ((ctrlCycle s v).flag l.event && (v &&& ctrlMask).getLsbD l.enableBit) := irq_eq _ l
    _ = ((s.flag l.event || unitRaises s l.event) && v.getLsbD l.enableBit) := by
      rw [hflag, getLsbD_enableBit_and_ctrlMask]

/-- R79, R211: clearing its flag drops a line, unless the flag is raised again in that cycle. -/
theorem ifgCycle_irq_of_cleared {s : State} {v : Word} {l : IrqLine} (hv : v.getLsbD (eventBit l.event) = true)
    (hu : unitRaises s l.event = false) : (ifgCycle s v).irq l = false := by
  have hexec : exec (.wrIfg v) s = .next (ifgCycle s v) := rfl
  rw [irq_eq, exec_flag_cleared hexec hv hu, Bool.false_and]

/-! ## The obligations -/

/-- Settles O46. -/
theorem flagsAreStickyAndSetWins : Obligations.FlagsAreStickyAndSetWins := by
  refine ⟨flag_resetOf, fun i s => ?_⟩
  obtain ⟨t, ht⟩ := exec_completes i s
  refine ⟨t, ht, fun e => ⟨exec_flag_raised ht, exec_owCmdErr_of_rejected ht, exec_flag_stays ht, ?_, exec_flag_origin ht⟩⟩
  rintro v rfl
  exact exec_flag_cleared ht

/-- Settles O47, each line by the lemma over all four. -/
theorem interruptLinesFollowFlagsAndEnables : Obligations.InterruptLinesFollowFlagsAndEnables := by
  refine fun s => ⟨⟨irq_eq s .tick, irq_eq s .ow, irq_eq s .rx, irq_eq s .btn⟩, fun v => ⟨ctrlCycle s v, rfl, ?_⟩,
    fun v => ⟨ifgCycle s v, rfl, ?_⟩⟩
  · exact ⟨ctrlCycle_irq s v .tick, ctrlCycle_irq s v .ow, ctrlCycle_irq s v .rx, ctrlCycle_irq s v .btn⟩
  · exact ⟨ifgCycle_irq_of_cleared (l := .tick), ifgCycle_irq_of_cleared (l := .ow), ifgCycle_irq_of_cleared (l := .rx),
      ifgCycle_irq_of_cleared (l := .btn)⟩

end Sys2Proof.Machine
end

section
/-! The block right after reset (70_reset_and_hazards.md R228, R229): the buttons' reset values, the word that a read gives in its
cycle, and the levels that the synchronizers give before a pin level has come through. -/

namespace Sys2Proof.Machine

open Sys2Proof

/-! ## The button bank after reset -/

/-- R37: a button released reads 1 where it is active low, and 0 otherwise. -/
theorem getLsbD_releasedButtons (p : Params) (k : Fin 4) : (releasedButtons p).getLsbD k = p.btnActiveLow := by
  have hlevel : ∀ (low : Bool) (k : Nat), k < 4 → (if low then 0b1111#4 else 0b0000#4).getLsbD k = low := by decide
  exact hlevel p.btnActiveLow k k.isLt

theorem quadGet_constant {α : Type} (a : α) (k : Fin 4) : quadGet ⟨a, a, a, a⟩ k = a := quadGet_quadOf (fun _ => a) k

/-! ## A read, by the word it gives -/

/-- R77, R85: an instruction that gives a word is a read, and its cycle is the plain one with the word on `bus_rdata`. -/
theorem exec_of_busReadOf {i : Instr} {s : State} {w : Word} (h : busReadOf s i = some w) :
    exec i s = .next { s.cycleNext with busRdata := some w } := by
  have hcmd : writesOwCmd i = false := Bool.eq_false_iff.2 fun hw => by
    have hnone : busReadOf s i = none := (busReadOf_eq_none_iff s i).2 (isReadAccess_of_writesOwCmd hw)
    exact Option.some_ne_none w (h.symm.trans hnone)
  have hctrl : ∀ v, i ≠ .wrCtrl v := by
    rintro v rfl
    cases h
  have hifg : ∀ v, i ≠ .wrIfg v := by
    rintro v rfl
    cases h
  obtain ⟨t, ht, hframe, hbus, -⟩ := onlyThreeWritesHaveSideEffects i s hcmd hctrl hifg
  rw [ht, hframe, hbus, h]

/-! ## The synchronizers after reset -/

theorem getLastD_replicate_succ {α : Type} (n : Nat) (a d : α) : (List.replicate (n + 1) a).getLastD d = a := by
  rw [List.getLastD_eq_getLast?, List.getLast?_replicate, if_neg n.succ_ne_zero, Option.getD_some]

/-- R71: the synchronizers of the reset state give their reset levels. -/
theorem sample_resetOf (p : Params) : (State.resetOf p).sample = resetPins p := by
  change (List.replicate p.syncStages (resetPins p)).getLastD (resetPins p) = resetPins p
  cases p.syncStages with
  | zero => rfl
  | succ n => exact getLastD_replicate_succ n _ _

/-- R15, R71: with two stages or more, the level of the first cycle's pins has not come through in the second. -/
theorem sample_cycleNext_resetOf {p : Params} (h : 2 ≤ p.syncStages) : (State.resetOf p).cycleNext.sample = resetPins p := by
  obtain ⟨n, hn⟩ := Nat.exists_eq_add_of_le' h
  have hreset : (State.resetOf p).sync = List.replicate (n + 1 + 1) (resetPins p) := congrArg (List.replicate · _) hn
  have hnext : (State.resetOf p).cycleNext.sync = (State.resetOf p).pins :: List.replicate (n + 1) (resetPins p) := by
    rw [cycleNext_sync, syncNext, hreset, List.dropLast_replicate, Nat.add_sub_cancel]
  rw [State.sample, hnext, List.getLastD_cons, getLastD_replicate_succ]

/-! ## The obligations -/

/-- Settles O11: the fields are those of `State.resetOf`, and the four buttons share their reset values. -/
theorem resetStateOfEveryField : Obligations.ResetStateOfEveryField := by
  intro p
  have hbtn : ∀ k, quadGet (State.resetOf p).btn.db k = 0 ∧ (State.resetOf p).btn.prev.getLsbD k = p.btnActiveLow :=
    fun k => ⟨quadGet_constant 0 k, getLsbD_releasedButtons p k⟩
  exact ⟨rfl, rfl, rfl, rfl, rfl, rfl, rfl, rfl, rfl, rfl, rfl, rfl, rfl, hbtn, rfl, rfl, rfl, rfl, rfl, rfl, rfl, rfl, rfl,
    rfl, rfl, rfl⟩

/-- Settles O12: each read by the word of its register in the reset state, which only LINE and LEVEL take from the inputs. -/
theorem registersReadAfterReset : Obligations.RegistersReadAfterReset := by
  intro l s reads
  have hread : ∀ i w, busReadOf s i = some w → reads i w := fun _ _ => exec_of_busReadOf
  have hctrl : readCtrl s = 0x0000 := BitVec.zero_and
  have hifg : readIfg s = 0x0000 := BitVec.zero_and
  have howRdata : readOwRdata s = 0x0000 := BitVec.zero_append_zero
  have hpeer : readPeer s = 0x1900 := readPeer_resetOf Params.default
  have hframe : readFrame State.reset = 0x000B := by decide
  exact
    ⟨hread .rdCtrl _ (congrArg some hctrl),
      hread .rdIfg _ (congrArg some hifg),
      hread .rdOwCmd _ rfl,
      hread .rdOwStat _ (congrArg some (readOwStat_resetOf Params.default l)),
      hread .rdOwRdata _ (congrArg some howRdata),
      hread .rdTxStat _ (congrArg some (readTxStat_resetOf Params.default)),
      hread .rdRxStat _ (congrArg some (readRxStat_resetOf Params.default l)),
      hread .rdPeer _ (congrArg some hpeer),
      hread .rdBeatCnt _ rfl,
      hread .rdFrame _ (congrArg some hframe),
      hread .rdBtnStat _ (congrArg some (readBtnStat_resetOf Params.default l)),
      hread .rdHold _ rfl,
      fun off _ => hread (.rdRsvd off) _ rfl,
      sample_resetOf Params.default,
      sample_cycleNext_resetOf (p := Params.default) (le_refl 2)⟩

end Sys2Proof.Machine
end
